-- ==== Sys2Proof/Word.lean ====
section
/-! DEFINITION. The widths that the manual treats as bits: bytes of the port frames and cell time. -/

namespace Sys2Proof

/-- One byte of a frame, a serial number or a report layout. -/
abbrev Byte := BitVec 8

/-- Cell time: a 32-bit count of milliseconds that wraps (R3). -/
abbrev Time := BitVec 32

end Sys2Proof
end

