-- ==== Sys2Proof/Config.lean ====
section
/-! DEFINITION. What the part fixes once for all: the sizes of its tables and queues. The manual leaves no value of the part open
to an implementation, so there is no free value here; conventions that the model had to choose are in the assumption log. -/

namespace Sys2Proof.Config

/-- Step slots 0..254; position 255 is END (R29). -/
abbrev slotCount : Nat := 255

/-- The link value END (R29). -/
abbrev endLink : Nat := 255

/-- Plan directory entries, one for each plan number 1..16 (R33). -/
abbrev planCount : Nat := 16

/-- Common cells 0..63 (R45). -/
abbrev commonCount : Nat := 64

/-- Variant cells of one entry (R41). -/
abbrev variantCellCount : Nat := 16

/-- Lanes of a listen buffer and angle marks of a revolution (R108). -/
abbrev laneCount : Nat := 64

/-- Operand references of a step record. -/
abbrev refCount : Nat := 10

/-- Entries of the variant table (R41). -/
abbrev variantCapacity : Nat := 32

/-- Committed reports the queue holds at most (R153). -/
abbrev reportCapacity : Nat := 16

/-- Samples of a full sensor window (R94). -/
abbrev windowLength : Nat := 16

end Sys2Proof.Config
end

