-- ==== Sys2Proof/Syntax.lean ====
section
/-! DEFINITION. The names the manual gives to bays, ports, lines, steps and references, and the ONE inductive of the part's
commands and events: one constructor of `Instr` for each row of spec/opcode_table.json. -/

namespace Sys2Proof

/-- The four bays, numbered 0, 1, 2, 3 in frames (00_scope.md, Conventions). -/
inductive BayId where
  | bayA | bayB | bayC | bayD
  deriving DecidableEq, Repr

/-- The three ports (R164). -/
inductive PortId where
  | line | cell | archive
  deriving DecidableEq, Repr

/-- A bay's two listen buffers (R108). -/
inductive BufId where
  | a0 | a1
  deriving DecidableEq, Repr

/-- The discrete inputs of a bay (R22). -/
inductive InputLine where
  | pres | clmp | cpld | grd
  deriving DecidableEq, Repr

/-- The two channels that the Sensor Link keeps in windows (R94). -/
inductive SlowChannel where
  | pressure | temperature
  deriving DecidableEq, Repr

/-- The states a drive reports (R74). -/
inductive DriveState where
  | ready | running | fault
  deriving DecidableEq, Repr

/-- An entry of the function map (R6). -/
inductive LineMode where
  | held | driven
  deriving DecidableEq, Repr

/-- The function map of a bay configuration (R6); FILL has no entry. -/
structure FunctionMap where
  clamp : LineMode
  couple : LineMode
  sealHeads : LineMode
  vent : LineMode
  deriving DecidableEq, Repr

/-- The four kinds of step. -/
inductive StepKind where
  | ramp | dwell | listen | leak
  deriving DecidableEq, Repr

/-- The five skip tests (R57). -/
inductive SkipTest where
  | run | ifClean | unlessClean | ifLastPass | audit
  deriving DecidableEq, Repr

/-- An operand reference (02, The step record). -/
inductive Ref where
  | immediate (v : Int)
  | variant (i : Nat)
  | common (i : Nat)
  | indirect (i : Nat)
  deriving DecidableEq, Repr

/-- A step record: what WRITE STEP carries and a slot holds. `auditCell` is present with skip test AUDIT and absent otherwise in a
stored record; `next` 255 is END. -/
structure StepRecord where
  kind : StepKind
  skip : SkipTest
  auditCell : Option Nat
  next : Nat
  refs : Vector Ref Config.refCount
  deriving DecidableEq, Repr

/-- One constructor for each row of spec/opcode_table.json. The events come first; the port commands carry the port they arrive on
and their payload fields as the numbers received. -/
inductive Instr where
  /-- POWER_ON_RESET: the RESET input resets every block. -/
  | powerOnReset
  /-- MILLISECOND_TICK: `order` is the order in which the four Drive Links take their generator step in this millisecond. -/
  | millisecondTick (order : List BayId)
  /-- DRIVE_REPORT: a report arrives on DRX: its echo and fields, and the check it ends with. -/
  | driveReport (bay : BayId) (echo : Byte) (state : DriveState) (speed : BitVec 16) (torque : BitVec 16) (check : BitVec 16)
  /-- DRIVE_LOST. -/
  | driveLost (bay : BayId)
  /-- RAMP_TIMEOUT. -/
  | rampTimeout (bay : BayId)
  /-- DWELL_END. -/
  | dwellEnd (bay : BayId)
  /-- WIND_DOWN_EXPIRY. -/
  | windDownExpiry (bay : BayId)
  /-- HOLD_EXPIRED. -/
  | holdExpired (bay : BayId)
  /-- PRESSURE_WORD: bits 21..0 of a word with tag 01. -/
  | pressureWord (bay : BayId) (payload : BitVec 22)
  /-- TEMPERATURE_WORD: bits 21..0 of a word with tag 10. -/
  | temperatureWord (bay : BayId) (payload : BitVec 22)
  /-- VIBRATION_WORD: bits 21..0 of a word with tag 11. -/
  | vibrationWord (bay : BayId) (payload : BitVec 22)
  /-- FOREIGN_TAG_WORD: bits 21..0 of a word with tag 00. -/
  | foreignTagWord (bay : BayId) (payload : BitVec 22)
  /-- WORD_BREAK. -/
  | wordBreak (bay : BayId)
  /-- SILENCE_PURGE. -/
  | silencePurge (bay : BayId) (channel : SlowChannel)
  /-- PRESSURE_LOSS. -/
  | pressureLoss (bay : BayId)
  /-- TEMPERATURE_LOSS. -/
  | temperatureLoss (bay : BayId)
  /-- ACQUISITION_TIMEOUT. -/
  | acquisitionTimeout (bay : BayId)
  /-- REDUCTION_COMPLETE: the one reduction engine. -/
  | reductionComplete
  /-- FILL_LIMIT_EXPIRY. -/
  | fillLimitExpiry (bay : BayId)
  /-- SETTLE_END. -/
  | settleEnd (bay : BayId)
  /-- MEASURE_END. -/
  | measureEnd (bay : BayId)
  /-- VENT_LIMIT_EXPIRY. -/
  | ventLimitExpiry (bay : BayId)
  /-- INPUT_LINE_CHANGE: the filter confirms `level` on an input (true is asserted). -/
  | inputLineChange (bay : BayId) (line : InputLine) (level : Bool)
  /-- QUIET_TIMER_EXPIRY. -/
  | quietTimerExpiry (port : PortId)
  /-- TRANSFER_START: SEL falls. -/
  | transferStart (port : PortId)
  /-- REQUEST_TAKEN: SEL rises after `bytes` whole bytes and `extraBits` bits of a further byte. -/
  | requestTaken (port : PortId) (bytes : List Byte) (extraBits : Nat)
  /-- RESPONSE_READY. -/
  | responseReady (port : PortId)
  /-- NOP, code 00. -/
  | nop (port : PortId)
  /-- NEXT NOTICE, code 01. -/
  | nextNotice (port : PortId)
  /-- SET NOTICE MASK, code 02. -/
  | setNoticeMask (port : PortId) (mask : BitVec 16)
  /-- SET NOTICE INTERVAL, code 03. -/
  | setNoticeInterval (port : PortId) (interval : Nat)
  /-- PRESENT, code 10. -/
  | present (port : PortId) (bay : Nat) (serial : List Byte) (variantCode : Nat)
  /-- HANDOVER, code 11. -/
  | handover (port : PortId) (bay : Nat)
  /-- WITHDRAW, code 12. -/
  | withdraw (port : PortId) (bay : Nat)
  /-- RELEASE, code 13. -/
  | release (port : PortId) (bay : Nat)
  /-- SET LINES, code 14. -/
  | setLines (port : PortId) (bay : Nat) (mask : BitVec 8)
  /-- CLEAR LINES, code 15. -/
  | clearLines (port : PortId) (bay : Nat) (mask : BitVec 8)
  /-- READ BAY, code 16. -/
  | readBay (port : PortId) (bay : Nat)
  /-- CELL RUN, code 20. -/
  | cellRun (port : PortId)
  /-- CELL STOP, code 21. -/
  | cellStop (port : PortId)
  /-- CLEAR TABLES, code 22. -/
  | clearTables (port : PortId)
  /-- SET CELL, code 23. -/
  | setCell (port : PortId) (stopRamp : Nat) (threshold : Nat)
  /-- CONFIGURE BAY, code 24. -/
  | configureBay (port : PortId) (bay : Nat) (speedLimit : Nat) (wordWidth : Nat) (angleOffset : Nat) (map : FunctionMap)
  /-- OPEN PLAN, code 30. -/
  | openPlan (port : PortId) (plan : Nat)
  /-- WRITE STEP, code 31. -/
  | writeStep (port : PortId) (plan : Nat) (slot : Nat) (record : StepRecord)
  /-- PUBLISH PLAN, code 32. -/
  | publishPlan (port : PortId) (plan : Nat) (head : Nat) (endOnFail : Bool)
  /-- DISCARD PLAN, code 33. -/
  | discardPlan (port : PortId) (plan : Nat)
  /-- RETIRE PLAN, code 34. -/
  | retirePlan (port : PortId) (plan : Nat)
  /-- READ STEP, code 35. -/
  | readStep (port : PortId) (slot : Nat)
  /-- READ PLAN, code 36. -/
  | readPlan (port : PortId) (plan : Nat)
  /-- WRITE VARIANT, code 38. -/
  | writeVariant (port : PortId) (code : Nat) (plan : Nat) (cells : Vector Int Config.variantCellCount)
  /-- DELETE VARIANT, code 39. -/
  | deleteVariant (port : PortId) (code : Nat)
  /-- READ VARIANT, code 3A. -/
  | readVariant (port : PortId) (code : Nat) (start : Nat)
  /-- WRITE CELL, code 3B. -/
  | writeCell (port : PortId) (cell : Nat) (value : Int)
  /-- READ CELL, code 3C. -/
  | readCell (port : PortId) (cell : Nat)
  /-- HOLD, code 40. -/
  | hold (port : PortId) (bay : Nat)
  /-- RESUME, code 41. -/
  | resume (port : PortId) (bay : Nat)
  /-- ABORT, code 42. -/
  | abort (port : PortId) (bay : Nat)
  /-- TAKE MANUAL, code 43. -/
  | takeManual (port : PortId) (bay : Nat)
  /-- RETURN MANUAL, code 44. -/
  | returnManual (port : PortId) (bay : Nat)
  /-- JOG, code 45. -/
  | jog (port : PortId) (bay : Nat) (speed : Int)
  /-- READ LIVE, code 46. -/
  | readLive (port : PortId) (bay : Nat)
  /-- PEEK REPORT, code 50. -/
  | peekReport (port : PortId) (offset : Nat) (length : Nat)
  /-- TAKE REPORT, code 51. -/
  | takeReport (port : PortId) (sequence : Nat)
  /-- QUEUE STATUS, code 52. -/
  | queueStatus (port : PortId)
  deriving DecidableEq, Repr

end Sys2Proof
end

