-- ==== Sys2Proof/Machine/State.lean ====
section
/-! DEFINITION. The part's whole state as plain data, block by block as the manual gives it, and the state after power-on reset. -/

namespace Sys2Proof.Machine

/-! ## Named values -/

/-- Cell states (R1). -/
inductive CellState where
  | stopped | running | stopping
  deriving DecidableEq, Repr

/-- Bay states, in the order of R7. -/
inductive BayState where
  | empty | loaded | running | held | closing | aborting | finished | unloading
  deriving DecidableEq, Repr

/-- Owners (R7). -/
inductive Owner where
  | line | sequencer | cell
  deriving DecidableEq, Repr

/-- Step phases, with the codes of R170 in order from NONE 0. -/
inductive StepPhase where
  | none | entryWait | ramping | tracking | dwelling | bufferWait | listening
  | ambient | fillWait | fill | settle | measure | vent
  deriving DecidableEq, Repr

/-- Verdicts of a result and the running verdict, in the ranking of R64. -/
inductive Verdict where
  | pass | marginal | invalid | fail
  deriving DecidableEq, Repr

/-- Final verdicts of a report (R151). -/
inductive FinalVerdict where
  | pass | marginal | incomplete | fail | aborted | fault | diverted
  deriving DecidableEq, Repr

/-- Causes and faults, in the order of their codes 01..1A hex (09, Status codes). -/
inductive Cause where
  | lineWithdraw | cellAbort | axleLost | clampLost | guardOpen | holdExpired | reference | driveLost | driveFault
  | driveTrack | driveStuck | sensorLost | ventBlocked | unknownVariant | withdrawn | limitOrder | noData | sensorShort
  | tooSlow | saturated | sync | timeout | planConflict | linesHeld | unstable | grossLeak
  deriving DecidableEq, Repr

/-- What a result checked (R61). -/
inductive Check where
  | torque | temperature | noise | leak
  deriving DecidableEq, Repr

/-- Report status of a bay (R163). -/
inductive ReportStatus where
  | none | waiting | committed
  deriving DecidableEq, Repr

/-- Where a hold was taken (R55). -/
inductive HoldPoint where
  | after | before
  deriving DecidableEq, Repr

/-- Plan directory states (R33). -/
inductive PlanState where
  | empty | loading | ready | retiring
  deriving DecidableEq, Repr

/-- States of a listen buffer (R108). -/
inductive BufState where
  | free | acquiring | queued | reducing
  deriving DecidableEq, Repr

/-- Row state of Noise Acquisition (R109). -/
inductive RowState where
  | idle
  | hunting
  | inRow (expected : Nat)
  deriving DecidableEq, Repr

/-- Phases of a Leak Unit (R135). -/
inductive LeakPhase where
  | idle | ambient | fillWait | fill | settle | measure | vent
  deriving DecidableEq, Repr

/-- Wind-down of a Drive Link (R72). -/
inductive WindDown where
  | none
  | inProgress (start : Time)
  | over
  deriving DecidableEq, Repr

/-- The notices: a class with its subject (09, Notices). -/
inductive Notice where
  | fault (bay : BayId)
  | aborted (bay : BayId)
  | readyToRelease (bay : BayId)
  | presence (bay : BayId)
  | owner (bay : BayId)
  | bayState (bay : BayId)
  | planRetired (plan : Nat)
  | cellState
  | backlog
  | reportAvailable
  deriving DecidableEq, Repr

/-- Status codes of responses, in the order of their codes 00..17 hex (09, Status codes). -/
inductive Status where
  | ok | idle | notReady | badFrame | unknownCommand | wrongPort | badArgument | wrongState
  | owned | cellStopped | noAxle | guardOpen | notClamped | reportPending | queueEmpty | planInvalid
  | slotTaken | planNotReady | inUse | tableFull | notFound | lineReserved | driveMoving | noStepsLeft
  deriving DecidableEq, Repr

/-! ## Operands latched at step entry (R47) -/

structure RampOps where
  target : Int
  rate : Int
  torque : Int
  tolerance : Int
  timeout : Int
  deriving DecidableEq, Repr

structure DwellOps where
  duration : Int
  torquePass : Int
  torqueFail : Int
  risePass : Int
  riseFail : Int
  deriving DecidableEq, Repr

structure ListenOps where
  exponent : Int
  order : Int
  baseM : Int
  base2M : Int
  passM : Int
  failM : Int
  pass2M : Int
  fail2M : Int
  slipAllowance : Int
  timeout : Int
  deriving DecidableEq, Repr

structure LeakOps where
  pressure : Int
  volume : Int
  fillLimit : Int
  settleTime : Int
  measureTime : Int
  passLimit : Int
  failLimit : Int
  deltaTMax : Int
  retries : Int
  deriving DecidableEq, Repr

/-- The clamped operands of the step in progress (R48). -/
inductive Operands where
  | ramp (ops : RampOps)
  | dwell (ops : DwellOps)
  | listen (ops : ListenOps)
  | leak (ops : LeakOps)
  deriving DecidableEq, Repr

/-! ## Results and reports -/

/-- The notes of a result (R61); bit 1 of the coded byte has no note. -/
structure Notes where
  gain : Bool
  retried : Bool
  saturatedQ : Bool
  deriving DecidableEq, Repr

/-- A result (R61). -/
structure Result where
  slot : Nat
  kind : StepKind
  check : Check
  verdict : Verdict
  cause : Option Cause
  value1 : Int
  value2 : Int
  notes : Notes
  completion : Time
  deriving DecidableEq, Repr

/-- A report (R151). The result count is the length of `results`. -/
structure Report where
  sequence : Option Nat
  bay : BayId
  serial : List Byte
  variantCode : Nat
  planNumber : Nat
  planVersion : Nat
  verdict : FinalVerdict
  cause : Option Cause
  secondary : Option Cause
  audit : Bool
  adjusted : Bool
  handoverTime : Option Time
  finishTime : Time
  results : List Result
  deriving DecidableEq, Repr

/-- An entry of the commit waiting list (R156). -/
structure WaitEntry where
  bay : BayId
  report : Report
  deriving DecidableEq, Repr

/-- The Report Queue (R153). -/
structure ReportQueue where
  queue : List Report
  nextSequence : Nat
  waiting : List WaitEntry
  backlog : Bool
  deriving DecidableEq, Repr

/-! ## Cell Control -/

/-- Cell state, cell time and cell settings (R1, R3, R4). -/
structure CellControl where
  state : CellState
  time : Time
  stopRamp : Nat
  backlogThreshold : Nat
  deriving DecidableEq, Repr

/-! ## Plan Store -/

/-- An owned step slot: its plan and its record (R29). -/
structure OwnedStep where
  plan : Nat
  record : StepRecord
  deriving DecidableEq, Repr

/-- A plan directory entry (R33). -/
structure PlanEntry where
  state : PlanState
  head : Option Nat
  version : Nat
  endOnFail : Bool
  refCount : Nat
  stepCount : Option Nat
  resultBound : Option Nat
  deriving DecidableEq, Repr

/-- A variant entry (R41). -/
structure VariantEntry where
  code : Nat
  plan : Nat
  cells : Vector Int Config.variantCellCount
  deriving DecidableEq, Repr

/-- The Plan Store: step slots 0..254 (none is FREE), directory entries of plans 1..16 at positions 0..15, the variant table in
ascending order of code, and the common page. -/
structure PlanStore where
  slots : Vector (Option OwnedStep) Config.slotCount
  directory : Vector PlanEntry Config.planCount
  variants : List VariantEntry
  common : Vector Int Config.commonCount
  deriving DecidableEq, Repr

/-! ## Bays -/

/-- Bay configuration (R6). -/
structure BayConfig where
  speedLimit : Nat
  wordWidth : Nat
  angleOffset : Nat
  map : FunctionMap
  deriving DecidableEq, Repr

/-- Actuator line values, true is asserted (R7). -/
structure ActuatorLines where
  clamp : Bool
  couple : Bool
  sealHeads : Bool
  fill : Bool
  vent : Bool
  deriving DecidableEq, Repr

/-- Input line values, true is asserted (R7). -/
structure InputLines where
  pres : Bool
  clmp : Bool
  cpld : Bool
  grd : Bool
  deriving DecidableEq, Repr

/-- The bay record (R7), with the hold point (R55), and the operands (R48) and start temperature (R85) latched for the step in
progress. -/
structure BayRecord where
  state : BayState
  owner : Owner
  serial : Option (List Byte)
  variantCode : Nat
  planNumber : Option Nat
  planVersion : Option Nat
  slot : Option Nat
  phase : StepPhase
  stepStart : Option Time
  handoverTime : Option Time
  holdRequest : Bool
  holdStart : Option Time
  holdPoint : Option HoldPoint
  endRequest : Bool
  verdict : Verdict
  results : List Result
  pendingReductions : Nat
  audit : Bool
  adjusted : Bool
  cause : Option Cause
  secondary : Option Cause
  reportStatus : ReportStatus
  lines : ActuatorLines
  inputs : InputLines
  latched : Option Operands
  startTemperature : Option Int
  deriving DecidableEq, Repr

/-- A drive report (R74). -/
structure DriveReport where
  state : DriveState
  speed : Int
  torque : Int
  deriving DecidableEq, Repr

/-- A setpoint message with the check it ends with (R73, R165). -/
structure SetpointMessage where
  sequence : Byte
  enable : Bool
  setpoint : Int
  torqueLimit : Nat
  check : BitVec 16
  deriving DecidableEq, Repr

/-- The dwell accumulator while it is not idle (R86). -/
structure DwellAccumulator where
  count : Nat
  sum : Nat
  peak : Nat
  deriving DecidableEq, Repr

/-- The Drive Link of a bay (R72). `sent` is the last setpoint message on DTX, `awaited` the sequence that a report must still
echo, and `lostGiven` that the present run of silence has given its DRIVE_LOST: the three carry R74 and R76 between events. -/
structure DriveLink where
  x : Int
  target : Int
  rampRate : Nat
  torqueLimit : Nat
  enable : Bool
  jogTarget : Int
  sequence : Byte
  latest : Option DriveReport
  missed : Nat
  reportAge : Nat
  faultSeen : Bool
  windDown : WindDown
  dwell : Option DwellAccumulator
  sent : Option SetpointMessage
  awaited : Option Byte
  lostGiven : Bool
  deriving DecidableEq, Repr

/-- One sample of a window: its word and its intake time (R94). -/
structure Sample where
  word : Int
  time : Time
  deriving DecidableEq, Repr

/-- The staged vibration sample (R99). -/
structure VibrationSample where
  angle : Nat
  value : Int
  time : Time
  deriving DecidableEq, Repr

/-- The loss watch while it runs (R105). -/
structure LossWatch where
  pressureTimer : Nat
  temperatureTimer : Nat
  mark : Bool
  deriving DecidableEq, Repr

/-- The Sensor Link of a bay (R94); windows are oldest first. -/
structure SensorLink where
  pressure : List Sample
  temperature : List Sample
  pressureSilence : Nat
  temperatureSilence : Nat
  vibration : Option VibrationSample
  vibrationSilence : Nat
  framingErrors : Nat
  lossWatch : Option LossWatch
  deriving DecidableEq, Repr

/-- A listen buffer (R108). -/
structure ListenBuffer where
  state : BufState
  lanes : Vector Int Config.laneCount
  revolutions : Nat
  slips : Nat
  saturated : Bool
  acquisitionStart : Option Time
  ops : Option ListenOps
  slot : Option Nat
  discard : Bool
  deriving DecidableEq, Repr

/-- Noise Acquisition of a bay (R108, R109). `staging` holds the samples of lanes 0, 1, ... of the row in progress. -/
structure NoiseUnit where
  a0 : ListenBuffer
  a1 : ListenBuffer
  row : RowState
  staging : List Int
  deriving DecidableEq, Repr

/-- The Leak Unit of a bay (R135). `startMeans` is P1 and T1. -/
structure LeakUnit where
  phase : LeakPhase
  ops : Option LeakOps
  phaseStart : Option Time
  ambient : Option Int
  startMeans : Option (Int × Int)
  retryCount : Nat
  notes : Notes
  highest : Option Int
  posted : Bool
  deriving DecidableEq, Repr

/-- One bay with the blocks that serve it alone. -/
structure Bay where
  config : BayConfig
  record : BayRecord
  drive : DriveLink
  sensor : SensorLink
  noise : NoiseUnit
  leak : LeakUnit
  deriving DecidableEq, Repr

/-- The four bays. -/
structure Bays where
  a : Bay
  b : Bay
  c : Bay
  d : Bay
  deriving DecidableEq, Repr

/-! ## Shared blocks -/

/-- The reduction in the engine (R119). -/
structure EngineJob where
  bay : BayId
  buf : BufId
  start : Time
  deriving DecidableEq, Repr

/-- The Order Reducer (R119); engine `none` is IDLE. -/
structure OrderReducer where
  queue : List (BayId × BufId)
  engine : Option EngineJob
  deriving DecidableEq, Repr

/-- The Manifold Arbiter (R130); granted `none` is FREE. -/
structure ManifoldArbiter where
  granted : Option BayId
  queue : List BayId
  deriving DecidableEq, Repr

/-! ## Ports -/

/-- How the transfer in progress began, that is, what it shifts out (R166): a NOT_READY response, an IDLE response, or the pending
response with its length in bytes. -/
inductive TransferKind where
  | notReady
  | idle
  | response (length : Nat)
  deriving DecidableEq, Repr

/-- Port states (R164). -/
inductive PortState where
  | quiet
  | inTransfer (kind : TransferKind)
  | executing
  deriving DecidableEq, Repr

/-- A response as built in its execution event (R168); PREVIOUS_CUT is added when it is shifted out (R166). -/
structure Response where
  status : Status
  tag : Byte
  notice : Bool
  payload : List Byte
  deriving DecidableEq, Repr

/-- A Port Interface (R164). `received` is the receive buffer with its bytes and the bits of an unfinished byte. `shiftedOut` is the
frame on SDO in the present or last transfer, and `readOut` the whole bytes that the master took from SDO in the last one. `request` is the dispatched command not yet executed with its tag, and `preparing`
the response built and not yet ready. `notices` is the pending set in the order of R176. `ntf` is the NTF output, true is
asserted (R178). -/
structure Port where
  state : PortState
  received : List Byte
  receivedBits : Nat
  request : Option (Byte × Instr)
  preparing : Option Response
  response : Option Response
  cutMark : Bool
  shiftedOut : List Byte
  readOut : List Byte
  notices : List Notice
  mask : BitVec 10
  interval : Nat
  quietTimer : Nat
  ntf : Bool
  deriving DecidableEq, Repr

/-- The three ports. -/
structure Ports where
  line : Port
  cell : Port
  archive : Port
  deriving DecidableEq, Repr

/-! ## The machine -/

/-- Everything the part holds, and the queue of commands and events that wait, first in, first out. -/
structure State where
  cell : CellControl
  store : PlanStore
  bays : Bays
  reducer : OrderReducer
  manifold : ManifoldArbiter
  reports : ReportQueue
  ports : Ports
  pending : List Instr
  deriving DecidableEq, Repr

/-- The block never stops with a fault: every command and event of the manual has an effect, a refusal status in its response,
or no effect at that moment. No constructor, so no meaning can raise one (safe). -/
inductive Fault where
  deriving DecidableEq, Repr

/-- Why the model has no meaning for a command. -/
inductive Refusal where
  /-- Raised by an arm of exec whose command has no meaning yet; no arm of this model raises it (safe). -/
  | notModelled (mnemonic : String)
  deriving DecidableEq, Repr

/-! ## Power-on values -/

def Notes.none : Notes := ⟨false, false, false⟩

/-- R1, R3, R4. -/
def CellControl.reset : CellControl :=
  { state := .stopped, time := 0, stopRamp := 500, backlogThreshold := 12 }

/-- R33. -/
def PlanEntry.reset : PlanEntry :=
  { state := .empty, head := .none, version := 0, endOnFail := false, refCount := 0, stepCount := .none, resultBound := .none }

/-- Common cells after power-on reset and CLEAR TABLES (R45). -/
def commonReset : Vector Int Config.commonCount :=
  Vector.ofFn fun i => if i.val < 56 then 0 else 1

/-- Plan-store state after power-on reset (02, table at its end). -/
def PlanStore.reset : PlanStore :=
  { slots := Vector.replicate _ .none, directory := Vector.replicate _ PlanEntry.reset, variants := [], common := commonReset }

/-- R6. -/
def BayConfig.reset : BayConfig :=
  { speedLimit := 1500, wordWidth := 16, angleOffset := 0,
    map := { clamp := .held, couple := .held, sealHeads := .driven, vent := .driven } }

/-- R7; the input levels at power-on are log entry 4's. -/
def BayRecord.reset : BayRecord :=
  { state := .empty, owner := .line, serial := .none, variantCode := 0, planNumber := .none, planVersion := .none,
    slot := .none, phase := .none, stepStart := .none, handoverTime := .none, holdRequest := false, holdStart := .none,
    holdPoint := .none, endRequest := false, verdict := .pass, results := [], pendingReductions := 0, audit := false,
    adjusted := false, cause := .none, secondary := .none, reportStatus := .none,
    lines := ⟨false, false, false, false, false⟩, inputs := ⟨false, false, false, false⟩,
    latched := .none, startTemperature := .none }

/-- R72. -/
def DriveLink.reset : DriveLink :=
  { x := 0, target := 0, rampRate := 200, torqueLimit := 2000, enable := false, jogTarget := 0, sequence := 0,
    latest := .none, missed := 0, reportAge := 65535, faultSeen := false, windDown := .none, dwell := .none,
    sent := .none, awaited := .none, lostGiven := false }

/-- R94. -/
def SensorLink.reset : SensorLink :=
  { pressure := [], temperature := [], pressureSilence := 65535, temperatureSilence := 65535, vibration := .none,
    vibrationSilence := 65535, framingErrors := 0, lossWatch := .none }

/-- R108. -/
def ListenBuffer.reset : ListenBuffer :=
  { state := .free, lanes := Vector.replicate _ 0, revolutions := 0, slips := 0, saturated := false,
    acquisitionStart := .none, ops := .none, slot := .none, discard := false }

/-- R108, R109. -/
def NoiseUnit.reset : NoiseUnit :=
  { a0 := ListenBuffer.reset, a1 := ListenBuffer.reset, row := .idle, staging := [] }

/-- R135. -/
def LeakUnit.reset : LeakUnit :=
  { phase := .idle, ops := .none, phaseStart := .none, ambient := .none, startMeans := .none, retryCount := 0,
    notes := Notes.none, highest := .none, posted := false }

def Bay.reset : Bay :=
  { config := BayConfig.reset, record := BayRecord.reset, drive := DriveLink.reset, sensor := SensorLink.reset,
    noise := NoiseUnit.reset, leak := LeakUnit.reset }

def Bays.reset : Bays := ⟨Bay.reset, Bay.reset, Bay.reset, Bay.reset⟩

/-- R164; `mask` is the port's column of the notice table. -/
def Port.reset (mask : BitVec 10) : Port :=
  { state := .quiet, received := [], receivedBits := 0, request := .none, preparing := .none, response := .none,
    cutMark := false, shiftedOut := [], readOut := [], notices := [], mask := mask, interval := 0, quietTimer := 0, ntf := false }

/-- Classes 1..5 at the Line Port, 1..10 at the Cell Port, 9 and 10 at the Archive Port (09, Notices). -/
def Ports.reset : Ports :=
  { line := Port.reset 0b0000011111#10, cell := Port.reset 0b1111111111#10, archive := Port.reset 0b1100000000#10 }

/-- The machine right after power-on reset: every block at its power-on value and nothing waiting. -/
def State.reset : State :=
  { cell := CellControl.reset, store := PlanStore.reset, bays := Bays.reset,
    reducer := { queue := [], engine := .none }, manifold := { granted := .none, queue := [] },
    reports := { queue := [], nextSequence := 1, waiting := [], backlog := false },
    ports := Ports.reset, pending := [] }

end Sys2Proof.Machine
end

