-- ==== Sys2Proof/Machine/Ops.lean ====
section
/-! DEFINITION. Access to the bays and ports of a state, elapsed time, clamping, and the codes of bays. -/

namespace Sys2Proof.Machine

/-! ## Bays -/

def Bays.get (bs : Bays) : BayId → Bay
  | .bayA => bs.a
  | .bayB => bs.b
  | .bayC => bs.c
  | .bayD => bs.d

def Bays.set (bs : Bays) (b : BayId) (x : Bay) : Bays :=
  match b with
  | .bayA => { bs with a := x }
  | .bayB => { bs with b := x }
  | .bayC => { bs with c := x }
  | .bayD => { bs with d := x }

def State.bay (s : State) (b : BayId) : Bay := s.bays.get b

/-- The bay record of bay `b` (R7). -/
def State.record (s : State) (b : BayId) : BayRecord := (s.bay b).record

def mapBay (b : BayId) (f : Bay → Bay) (s : State) : State :=
  { s with bays := s.bays.set b (f (s.bays.get b)) }

def mapRecord (b : BayId) (f : BayRecord → BayRecord) (s : State) : State :=
  mapBay b (fun x => { x with record := f x.record }) s

def mapDrive (b : BayId) (f : DriveLink → DriveLink) (s : State) : State :=
  mapBay b (fun x => { x with drive := f x.drive }) s

def mapSensor (b : BayId) (f : SensorLink → SensorLink) (s : State) : State :=
  mapBay b (fun x => { x with sensor := f x.sensor }) s

def mapNoise (b : BayId) (f : NoiseUnit → NoiseUnit) (s : State) : State :=
  mapBay b (fun x => { x with noise := f x.noise }) s

def mapLeak (b : BayId) (f : LeakUnit → LeakUnit) (s : State) : State :=
  mapBay b (fun x => { x with leak := f x.leak }) s

/-- The four bays in the order of their numbers. -/
def allBays : List BayId := [.bayA, .bayB, .bayC, .bayD]

/-- The number of a bay in frames (00_scope.md, Conventions). -/
def bayCode : BayId → Nat
  | .bayA => 0
  | .bayB => 1
  | .bayC => 2
  | .bayD => 3

/-- The bay of a number 0..3; any other number names none (R9). -/
def bayOfCode : Nat → Option BayId
  | 0 => some .bayA
  | 1 => some .bayB
  | 2 => some .bayC
  | 3 => some .bayD
  | _ => none

/-! ## Ports -/

def Ports.get (ps : Ports) : PortId → Port
  | .line => ps.line
  | .cell => ps.cell
  | .archive => ps.archive

def Ports.set (ps : Ports) (p : PortId) (x : Port) : Ports :=
  match p with
  | .line => { ps with line := x }
  | .cell => { ps with cell := x }
  | .archive => { ps with archive := x }

def State.port (s : State) (p : PortId) : Port := s.ports.get p

def mapPort (p : PortId) (f : Port → Port) (s : State) : State :=
  { s with ports := s.ports.set p (f (s.ports.get p)) }

/-! ## Time and numbers -/

/-- The present cell time (R3). -/
def State.now (s : State) : Time := s.cell.time

/-- The difference of two cell times modulo 2^32 (R3). -/
def elapsed (now start : Time) : Nat := (now - start).toNat

/-- Whether a limit of `limit` ms that runs from a recorded start has been reached; without a start none runs. -/
def reached (now : Time) (start : Option Time) (limit : Nat) : Bool :=
  match start with
  | none => false
  | some t => limit ≤ elapsed now t

/-- "Clamped into a range" (00_scope.md, Arithmetic). -/
def clamp (lo hi v : Int) : Int := if v < lo then lo else if hi < v then hi else v

/-- `clamp` on counts. -/
def clampNat (lo hi v : Nat) : Nat := if v < lo then lo else if hi < v then hi else v

/-- A signed 24-bit parameter value (00_scope.md, Parameter values). -/
def isParameter (v : Int) : Bool := -8388608 ≤ v && v ≤ 8388607

end Sys2Proof.Machine
end

