-- ==== Sys2Proof/Machine/Bytes.lean ====
section
/-! DEFINITION. The coding of payload fields, the check of frames and drive link messages, and the codes of named values (R165, R170,
and the tables of 09). -/

namespace Sys2Proof.Machine

/-! ## Numbers (R170) -/

/-- `k` bytes of a number, most significant first. -/
def bytesOf : Nat → Nat → List Byte
  | 0, _ => []
  | k + 1, n => bytesOf k (n / 256) ++ [BitVec.ofNat 8 n]

/-- `k` bytes of a two's-complement number. -/
def bytesOfInt (k : Nat) (i : Int) : List Byte := bytesOf k (i % (256 ^ k : Nat)).toNat

/-- The unsigned number of a run of bytes, most significant first. -/
def natOf (bs : List Byte) : Nat := bs.foldl (fun n x => n * 256 + x.toNat) 0

/-- The two's-complement number of a run of bytes. -/
def intOf (bs : List Byte) : Int :=
  if natOf bs * 2 < 256 ^ bs.length then natOf bs else (natOf bs : Int) - (256 ^ bs.length : Nat)

/-- A flag or true/false field. -/
def byteOfBool (v : Bool) : List Byte := [if v then 1 else 0]

/-- An optional field of `k` bytes: a presence byte, then the field, zeros when absent. -/
def bytesOfOption (k : Nat) (o : Option (List Byte)) : List Byte :=
  match o with
  | some bs => 1 :: bs
  | none => 0 :: List.replicate k 0

/-- A bitmap with the first value in bit 0. -/
def bitmap (vs : List Bool) : Byte := BitVec.ofNat 8 (vs.foldr (fun v n => n * 2 + (if v then 1 else 0)) 0)

/-! ## The check (R165) -/

/-- One bit: shift left, and combine with 1021 hex when the top bit differs from the data bit. -/
def crcBit (reg : BitVec 16) (bit : Bool) : BitVec 16 :=
  if reg.getLsbD 15 != bit then (reg <<< 1) ^^^ 0x1021#16 else reg <<< 1

/-- The bits of a byte, most significant first. -/
def bitsOf (x : Byte) : List Bool := (List.range 8).map fun i => x.getLsbD (7 - i)

def crcByte (reg : BitVec 16) (x : Byte) : BitVec 16 := (bitsOf x).foldl crcBit reg

/-- The check of a run of bytes; the register starts at FFFF. -/
def crc (bytes : List Byte) : BitVec 16 := bytes.foldl crcByte 0xFFFF#16

/-- A frame's covered bytes with their check behind them, high byte first. -/
def withCheck (bytes : List Byte) : List Byte := bytes ++ bytesOf 2 (crc bytes).toNat

/-! ## Codes of named values -/

def cellStateCode : CellState → Nat
  | .stopped => 1 | .running => 2 | .stopping => 3

def bayStateCode : BayState → Nat
  | .empty => 1 | .loaded => 2 | .running => 3 | .held => 4 | .closing => 5 | .aborting => 6 | .finished => 7 | .unloading => 8

def ownerCode : Owner → Nat
  | .line => 1 | .sequencer => 2 | .cell => 3

def phaseCode : StepPhase → Nat
  | .none => 0 | .entryWait => 1 | .ramping => 2 | .tracking => 3 | .dwelling => 4 | .bufferWait => 5 | .listening => 6
  | .ambient => 7 | .fillWait => 8 | .fill => 9 | .settle => 10 | .measure => 11 | .vent => 12

def verdictCode : Verdict → Nat
  | .pass => 1 | .marginal => 2 | .invalid => 3 | .fail => 4

def finalVerdictCode : FinalVerdict → Nat
  | .pass => 1 | .marginal => 2 | .incomplete => 3 | .fail => 4 | .aborted => 5 | .fault => 6 | .diverted => 7

def causeCode : Cause → Nat
  | .lineWithdraw => 0x01 | .cellAbort => 0x02 | .axleLost => 0x03 | .clampLost => 0x04 | .guardOpen => 0x05
  | .holdExpired => 0x06 | .reference => 0x07 | .driveLost => 0x08 | .driveFault => 0x09 | .driveTrack => 0x0A
  | .driveStuck => 0x0B | .sensorLost => 0x0C | .ventBlocked => 0x0D | .unknownVariant => 0x0E | .withdrawn => 0x0F
  | .limitOrder => 0x10 | .noData => 0x11 | .sensorShort => 0x12 | .tooSlow => 0x13 | .saturated => 0x14 | .sync => 0x15
  | .timeout => 0x16 | .planConflict => 0x17 | .linesHeld => 0x18 | .unstable => 0x19 | .grossLeak => 0x1A

/-- Code 00 stands for absent (09, Status codes). -/
def causeCodeOf (c : Option Cause) : Nat := c.elim 0 causeCode

def checkCode : Check → Nat
  | .torque => 1 | .temperature => 2 | .noise => 3 | .leak => 4

def kindCode : StepKind → Nat
  | .ramp => 1 | .dwell => 2 | .listen => 3 | .leak => 4

def skipCode : SkipTest → Nat
  | .run => 1 | .ifClean => 2 | .unlessClean => 3 | .ifLastPass => 4 | .audit => 5

def driveStateCode : DriveState → Nat
  | .ready => 1 | .running => 2 | .fault => 3

def reportStatusCode : ReportStatus → Nat
  | .none => 1 | .waiting => 2 | .committed => 3

def planStateCode : PlanState → Nat
  | .empty => 1 | .loading => 2 | .ready => 3 | .retiring => 4

def statusCode : Status → Nat
  | .ok => 0x00 | .idle => 0x01 | .notReady => 0x02 | .badFrame => 0x03 | .unknownCommand => 0x04 | .wrongPort => 0x05
  | .badArgument => 0x06 | .wrongState => 0x07 | .owned => 0x08 | .cellStopped => 0x09 | .noAxle => 0x0A | .guardOpen => 0x0B
  | .notClamped => 0x0C | .reportPending => 0x0D | .queueEmpty => 0x0E | .planInvalid => 0x0F | .slotTaken => 0x10
  | .planNotReady => 0x11 | .inUse => 0x12 | .tableFull => 0x13 | .notFound => 0x14 | .lineReserved => 0x15
  | .driveMoving => 0x16 | .noStepsLeft => 0x17

/-! ## Layouts shared by several commands -/

/-- The five actuator lines: bit 0 CLAMP to bit 4 VENT (R170). -/
def linesByte (l : ActuatorLines) : Byte := bitmap [l.clamp, l.couple, l.sealHeads, l.fill, l.vent]

/-- The four inputs: bit 0 PRES to bit 3 GRD (R170). -/
def inputsByte (i : InputLines) : Byte := bitmap [i.pres, i.clmp, i.cpld, i.grd]

def lineModeCode : LineMode → Nat
  | .held => 1 | .driven => 2

/-- The function map byte: two bits for each line, 01 HELD and 10 DRIVEN (R171). -/
def mapByte (m : FunctionMap) : Byte :=
  BitVec.ofNat 8 (lineModeCode m.clamp + 4 * lineModeCode m.couple + 16 * lineModeCode m.sealHeads + 64 * lineModeCode m.vent)

/-- One reference: its form, then the signed value or the index (09, Byte layouts). -/
def refBytes : Ref → List Byte
  | .immediate v => 1 :: bytesOfInt 3 v
  | .variant i => 2 :: bytesOf 3 i
  | .common i => 3 :: bytesOf 3 i
  | .indirect i => 4 :: bytesOf 3 i

/-- The step layout of 46 bytes (09, Byte layouts; R172); an absent audit cell is 0. -/
def stepBytes (plan slot : Nat) (r : StepRecord) : List Byte :=
  bytesOf 1 plan ++ bytesOf 1 slot ++ bytesOf 1 (kindCode r.kind) ++ bytesOf 1 (skipCode r.skip)
    ++ bytesOf 1 (r.auditCell.getD 0) ++ bytesOf 1 r.next ++ (r.refs.toList.map refBytes).flatten

/-- A result entry of 18 bytes (09, Byte layouts). -/
def resultBytes (r : Result) : List Byte :=
  bytesOf 1 r.slot ++ bytesOf 1 (kindCode r.kind) ++ bytesOf 1 (checkCode r.check) ++ bytesOf 1 (verdictCode r.verdict)
    ++ bytesOf 1 (causeCodeOf r.cause) ++ [bitmap [r.notes.gain, false, r.notes.retried, r.notes.saturatedQ]]
    ++ bytesOfInt 4 r.value1 ++ bytesOfInt 4 r.value2 ++ bytesOf 4 r.completion.toNat

/-- The report layout of 24 + n + 18c bytes (09, Byte layouts; R173). -/
def reportBytes (r : Report) : List Byte :=
  bytesOf 4 (r.sequence.getD 0) ++ bytesOf 1 (bayCode r.bay) ++ bytesOf 1 (finalVerdictCode r.verdict)
    ++ bytesOf 1 (causeCodeOf r.cause) ++ bytesOf 1 (causeCodeOf r.secondary)
    ++ [bitmap [r.audit, r.adjusted, r.handoverTime.isSome]]
    ++ bytesOf 1 r.planNumber ++ bytesOf 2 r.planVersion ++ bytesOf 2 r.variantCode
    ++ bytesOf 4 (r.handoverTime.elim 0 (·.toNat)) ++ bytesOf 4 r.finishTime.toNat
    ++ bytesOf 1 r.results.length ++ bytesOf 1 r.serial.length ++ r.serial ++ (r.results.map resultBytes).flatten

end Sys2Proof.Machine
end

