-- ==== Sys2Proof/Machine/Catalogue.lean ====
section
/-! DEFINITION. The command catalogue: the code of every command and the ports that carry it (09, The command catalogue). -/

namespace Sys2Proof.Machine

/-- The code of a command; an event has none. -/
def codeOf : Instr → Option Nat
  | .nop _ => some 0x00
  | .nextNotice _ => some 0x01
  | .setNoticeMask _ _ => some 0x02
  | .setNoticeInterval _ _ => some 0x03
  | .present _ _ _ _ => some 0x10
  | .handover _ _ => some 0x11
  | .withdraw _ _ => some 0x12
  | .release _ _ => some 0x13
  | .setLines _ _ _ => some 0x14
  | .clearLines _ _ _ => some 0x15
  | .readBay _ _ => some 0x16
  | .cellRun _ => some 0x20
  | .cellStop _ => some 0x21
  | .clearTables _ => some 0x22
  | .setCell _ _ _ => some 0x23
  | .configureBay _ _ _ _ _ _ => some 0x24
  | .openPlan _ _ => some 0x30
  | .writeStep _ _ _ _ => some 0x31
  | .publishPlan _ _ _ _ => some 0x32
  | .discardPlan _ _ => some 0x33
  | .retirePlan _ _ => some 0x34
  | .readStep _ _ => some 0x35
  | .readPlan _ _ => some 0x36
  | .writeVariant _ _ _ _ => some 0x38
  | .deleteVariant _ _ => some 0x39
  | .readVariant _ _ _ => some 0x3A
  | .writeCell _ _ _ => some 0x3B
  | .readCell _ _ => some 0x3C
  | .hold _ _ => some 0x40
  | .resume _ _ => some 0x41
  | .abort _ _ => some 0x42
  | .takeManual _ _ => some 0x43
  | .returnManual _ _ => some 0x44
  | .jog _ _ _ => some 0x45
  | .readLive _ _ => some 0x46
  | .peekReport _ _ _ => some 0x50
  | .takeReport _ _ => some 0x51
  | .queueStatus _ => some 0x52
  | .powerOnReset | .millisecondTick _ | .driveReport _ _ _ _ _ _ | .driveLost _ | .rampTimeout _ | .dwellEnd _
  | .windDownExpiry _ | .holdExpired _ | .pressureWord _ _ | .temperatureWord _ _ | .vibrationWord _ _
  | .foreignTagWord _ _ | .wordBreak _ | .silencePurge _ _ | .pressureLoss _ | .temperatureLoss _
  | .acquisitionTimeout _ | .reductionComplete | .fillLimitExpiry _ | .settleEnd _ | .measureEnd _
  | .ventLimitExpiry _ | .inputLineChange _ _ _ | .quietTimerExpiry _ | .transferStart _ | .requestTaken _ _ _
  | .responseReady _ => none

/-- The ports that carry the command of a code; a code that names no command has none. -/
def portsOf (code : Nat) : Option (List PortId) :=
  if code ≤ 0x03 then some [.line, .cell, .archive]
  else if 0x10 ≤ code ∧ code ≤ 0x13 then some [.line]
  else if 0x14 ≤ code ∧ code ≤ 0x16 then some [.line, .cell]
  else if 0x20 ≤ code ∧ code ≤ 0x24 ∨ 0x30 ≤ code ∧ code ≤ 0x36 ∨ 0x38 ≤ code ∧ code ≤ 0x3C ∨ 0x40 ≤ code ∧ code ≤ 0x46 then
    some [.cell]
  else if code = 0x51 then some [.archive]
  else if code = 0x50 ∨ code = 0x52 then some [.archive, .cell]
  else none

/-- The ports that carry a command; events come from no port. -/
def carriedOn (cmd : Instr) : List PortId := ((codeOf cmd).bind portsOf).getD []

end Sys2Proof.Machine
end

