-- ==== Sys2Proof/Machine/Notices.lean ====
section
/-! DEFINITION. Notices: classes, subjects, pending sets, masks and the notice line (R174 to R178). -/

namespace Sys2Proof.Machine

/-- The class of a notice by its priority number (09, Notices). -/
def Notice.cls : Notice → Nat
  | .fault _ => 1
  | .aborted _ => 2
  | .readyToRelease _ => 3
  | .presence _ => 4
  | .owner _ => 5
  | .bayState _ => 6
  | .planRetired _ => 7
  | .cellState => 8
  | .backlog => 9
  | .reportAvailable => 10

/-- The subject coded as the bay, the plan or FF hex (R176). -/
def Notice.subject : Notice → Nat
  | .fault b | .aborted b | .readyToRelease b | .presence b | .owner b | .bayState b => bayCode b
  | .planRetired n => n
  | .cellState | .backlog | .reportAvailable => 255

/-- The order in which NEXT NOTICE chooses: class first, then the lower subject (R176). -/
def Notice.key (n : Notice) : Nat := n.cls * 256 + n.subject

/-- A set bit p - 1 unmasks the class of priority p (R175). -/
def unmasked (mask : BitVec 10) (n : Notice) : Bool := mask.getLsbD (n.cls - 1)

/-- A pair joins the pending set, or is absorbed when it is there already (R174); the set is kept in the order of `key`. -/
def insertNotice (n : Notice) : List Notice → List Notice
  | [] => [n]
  | m :: ms => if n = m then m :: ms else if n.key < m.key then n :: m :: ms else m :: insertNotice n ms

/-- NTF is asserted while the pending set is non-empty and the quiet timer is expired (R178). -/
def Port.refreshNtf (p : Port) : Port := { p with ntf := !p.notices.isEmpty && p.quietTimer == 0 }

/-- A raised notice is offered to one port (R174). -/
def Port.offer (n : Notice) (p : Port) : Port :=
  if unmasked p.mask n then { p with notices := insertNotice n p.notices }.refreshNtf else p

/-- A notice raised by any block is offered to the three ports (R174). -/
def raise (n : Notice) (s : State) : State :=
  { s with ports := ⟨s.ports.line.offer n, s.ports.cell.offer n, s.ports.archive.offer n⟩ }

/-- Any change of cell state raises CELL_STATE (R1). -/
def setCellState (c : CellState) (s : State) : State :=
  raise .cellState { s with cell := { s.cell with state := c } }

/-- Each change of bay state raises BAY_STATE (01, Bay states and owners). -/
def setBayState (b : BayId) (st : BayState) (s : State) : State :=
  raise (.bayState b) (mapRecord b (fun r => { r with state := st }) s)

/-- Each change of owner raises OWNER (01, Bay states and owners). -/
def setOwner (b : BayId) (o : Owner) (s : State) : State :=
  raise (.owner b) (mapRecord b (fun r => { r with owner := o }) s)

/-- A bay is owned by the sequencer while it is in RUNNING, HELD, CLOSING or ABORTING (01, Cell state). -/
def BayState.sequenced : BayState → Bool
  | .running | .held | .closing | .aborting => true
  | .empty | .loaded | .finished | .unloading => false

/-- Whether some bay is owned by the sequencer. -/
def anySequenced (s : State) : Bool := allBays.any fun b => (s.record b).state.sequenced

end Sys2Proof.Machine
end

