-- ==== Sys2Proof/Machine/PlanStore.lean ====
section
/-! DEFINITION. The Plan Store: slots, directory, publication walk, variant table, common page and countdown cells (R29 to R46). -/

namespace Sys2Proof.Machine

/-! ## Slots (R29) -/

/-- What slot `k` holds; a FREE slot, and any position outside 0..254, holds nothing. -/
def PlanStore.slotAt (st : PlanStore) (k : Nat) : Option OwnedStep := st.slots[k]?.getD none

def PlanStore.setSlot (st : PlanStore) (k : Nat) (v : Option OwnedStep) : PlanStore :=
  { st with slots := st.slots.setIfInBounds k v }

/-- Whether plan `n` owns slot `k`. -/
def PlanStore.owns (st : PlanStore) (n k : Nat) : Bool :=
  match st.slotAt k with
  | some o => o.plan == n
  | none => false

/-- The number of FREE step slots. -/
def PlanStore.freeCount (st : PlanStore) : Nat := st.slots.toList.countP (·.isNone)

/-- The number of slots that plan `n` owns. -/
def PlanStore.ownedCount (st : PlanStore) (n : Nat) : Nat :=
  st.slots.toList.countP fun o => o.elim false (·.plan == n)

/-- Frees every slot of plan `n` that `keep` does not name, discarding its record. -/
def PlanStore.freeSlots (st : PlanStore) (n : Nat) (keep : List Nat) : PlanStore :=
  { st with slots := Vector.ofFn fun i =>
      match st.slots[i] with
      | some o => if o.plan = n ∧ i.val ∉ keep then none else some o
      | none => none }

/-! ## Directory (R33) -/

def isPlanNumber (n : Nat) : Bool := 1 ≤ n && n ≤ 16

/-- The directory entry of plan `n`, 1..16. -/
def PlanStore.entry (st : PlanStore) (n : Nat) : PlanEntry :=
  if isPlanNumber n then st.directory[n - 1]?.getD PlanEntry.reset else PlanEntry.reset

def PlanStore.setEntry (st : PlanStore) (n : Nat) (e : PlanEntry) : PlanStore :=
  if isPlanNumber n then { st with directory := st.directory.setIfInBounds (n - 1) e } else st

/-- An entry that returns to EMPTY: head, step count and result bound absent, end-on-fail clear, version kept (R33). -/
def PlanEntry.emptied (e : PlanEntry) : PlanEntry := { PlanEntry.reset with version := e.version }

/-- Every slot of plan `n` becomes FREE and its entry enters EMPTY, keeping its version (R37 to R39). -/
def PlanStore.emptyPlan (st : PlanStore) (n : Nat) : PlanStore :=
  (st.freeSlots n []).setEntry n (st.entry n).emptied

/-- A kind's maximum number of results (R35). -/
def maxResults : StepKind → Nat
  | .ramp => 0
  | .dwell => 2
  | .listen => 1
  | .leak => 1

/-! ## Publication (R35, R36) -/

/-- Where the validation walk stopped. -/
inductive WalkStop where
  | atEnd
  | foreign (slot : Nat)
  | revisit (slot : Nat)
  deriving DecidableEq, Repr

/-- The walk of R35 from slot `k`, with the slots visited so far (latest first) and the result total so far. Each turn visits a new
slot, so 256 turns always reach a stop. -/
def PlanStore.publishWalk (st : PlanStore) (plan : Nat) :
    Nat → Nat → List Nat → Nat → WalkStop × List Nat × Nat
  | 0, k, visited, total => (.revisit k, visited, total)
  | fuel + 1, k, visited, total =>
    if k = Config.endLink then (.atEnd, visited, total)
    else match st.slotAt k with
      | none => (.foreign k, visited, total)
      | some o =>
        if o.plan ≠ plan then (.foreign k, visited, total)
        else if k ∈ visited then (.revisit k, visited, total)
        else st.publishWalk plan fuel o.record.next (k :: visited) (total + maxResults o.record.kind)

/-- The detail codes of a refused publication with the slot each carries (R35, R169). -/
inductive PublishError where
  | emptyPlan
  | foreignSlot (slot : Nat)
  | cycle (slot : Nat)
  | chainTooLong
  | tooManyResults
  deriving DecidableEq, Repr

/-- The outcome of the walk: the first condition of R35 that holds, or the slots reached and the result total. -/
def PlanStore.judgeChain (st : PlanStore) (plan head : Nat) : Except PublishError (List Nat × Nat) :=
  if head = Config.endLink then .error .emptyPlan
  else match st.publishWalk plan 256 head [] 0 with
    | (.foreign k, _, _) => .error (.foreignSlot k)
    | (.revisit k, _, _) => .error (.cycle k)
    | (.atEnd, visited, total) =>
      if 64 < visited.length then .error .chainTooLong
      else if 32 < total then .error .tooManyResults
      else .ok (visited, total)

/-- The version after a publish: raised by one, from 65535 to 1 (R36). -/
def nextVersion (v : Nat) : Nat := if v ≥ 65535 then 1 else v + 1

/-- The one event of an accepted PUBLISH PLAN (R36). -/
def PlanStore.publish (st : PlanStore) (plan head : Nat) (endOnFail : Bool) (reachedSlots : List Nat) (total : Nat) : PlanStore :=
  (st.freeSlots plan reachedSlots).setEntry plan
    { state := .ready, head := some head, version := nextVersion (st.entry plan).version, endOnFail := endOnFail,
      refCount := 0, stepCount := some reachedSlots.length, resultBound := some total }

/-! ## Reference counts (R39) -/

/-- An accepted HANDOVER takes a reference on the plan (R12, R39). -/
def takeReference (n : Nat) (s : State) : State :=
  let e := s.store.entry n
  { s with store := s.store.setEntry n { e with refCount := e.refCount + 1 } }

/-- A bay that enters FINISHED gives up its reference; a RETIRING plan whose count falls to 0 empties and raises PLAN_RETIRED. -/
def releaseReference (plan : Option Nat) (s : State) : State :=
  match plan with
  | none => s
  | some n =>
    let e := s.store.entry n
    let st := s.store.setEntry n { e with refCount := e.refCount - 1 }
    if e.state = .retiring ∧ e.refCount - 1 = 0 then
      raise (.planRetired n) { s with store := st.emptyPlan n }
    else { s with store := st }

/-! ## Variant table (R41) -/

/-- The entry whose code equals `code`. -/
def PlanStore.variant (st : PlanStore) (code : Nat) : Option VariantEntry := st.variants.find? (·.code == code)

/-- Adds or replaces the entry of a code; the table is kept in ascending order of code. -/
def insertVariant (v : VariantEntry) : List VariantEntry → List VariantEntry
  | [] => [v]
  | w :: ws =>
    if v.code < w.code then v :: w :: ws
    else if v.code = w.code then v :: ws
    else w :: insertVariant v ws

/-- Whether some variant entry names plan `n` (R38). -/
def PlanStore.named (st : PlanStore) (n : Nat) : Bool := st.variants.any (·.plan == n)

/-! ## Common page (R45, R46) -/

def PlanStore.commonAt (st : PlanStore) (i : Nat) : Int := st.common[i]?.getD 0

def PlanStore.setCommon (st : PlanStore) (i : Nat) (v : Int) : PlanStore :=
  { st with common := st.common.setIfInBounds i v }

def isCountdown (i : Nat) : Bool := 56 ≤ i && i ≤ 63

/-- The value a WRITE CELL stores: clamped into 1..65535 for a countdown cell, as given otherwise (R45). -/
def storedCell (i : Nat) (v : Int) : Int := if isCountdown i then clamp 1 65535 v else v

/-- The AUDIT decrement of cell `i`: whether the count reached zero, and the store after it (R46). -/
def PlanStore.auditDecrement (st : PlanStore) (i : Nat) : Bool × PlanStore :=
  let count := st.commonAt i - 1
  if count = 0 then (true, st.setCommon i (clamp 1 65535 (st.commonAt (i - 8))))
  else (false, st.setCommon i count)

/-! ## CLEAR TABLES (R5, R33) -/

/-- The Plan Store after CLEAR TABLES: as after reset, but each entry keeps its version. -/
def PlanStore.cleared (st : PlanStore) : PlanStore :=
  { PlanStore.reset with directory := Vector.ofFn fun i => st.directory[i].emptied }

end Sys2Proof.Machine
end

