-- ==== Sys2Proof/Machine/Flags.lean ====
section
/-! DEFINITION. Banding, the ranking of verdicts, the running verdict, and the posting of a result (R61 to R68). -/

namespace Sys2Proof.Machine

/-- Every banded check grades a value against a pass and a fail limit (R63). -/
def band (x pass fail : Int) : Verdict :=
  if x ≤ pass then .pass else if x ≤ fail then .marginal else .fail

/-- The ranking PASS < MARGINAL < INVALID < FAIL (R64). -/
def Verdict.rank : Verdict → Nat
  | .pass => 0
  | .marginal => 1
  | .invalid => 2
  | .fail => 3

/-- The worse of two verdicts in the ranking of R64. -/
def worse (v w : Verdict) : Verdict := if v.rank < w.rank then w else v

/-- The worst verdict of a list of results, PASS when it is empty (R64, R68). -/
def worstOf (rs : List Result) : Verdict := rs.foldl (fun v r => worse v r.verdict) .pass

/-- The final verdict of a completed CLOSING (R68): the running verdict, with INVALID named INCOMPLETE. -/
def closingVerdict : Verdict → FinalVerdict
  | .pass => .pass
  | .marginal => .marginal
  | .invalid => .incomplete
  | .fail => .fail

/-- LINE_WITHDRAW and CELL_ABORT are command causes; every other cause of an abort is a fault (01, Entering ABORTING). -/
def Cause.isCommand : Cause → Bool
  | .lineWithdraw | .cellAbort => true
  | _ => false

/-- The final verdict of a bay in ABORTING (R20, R70). -/
def abortVerdict (cause secondary : Option Cause) : FinalVerdict :=
  match cause, secondary with
  | some c, none => if c.isCommand then .aborted else .fault
  | _, _ => .fault

/-- Whether the plan named in the record is end-on-fail (R66). -/
def endOnFailOf (s : State) (b : BayId) : Bool :=
  match (s.record b).planNumber with
  | some n => (s.store.entry n).endOnFail
  | none => false

/-- A posting is taken in RUNNING, HELD and CLOSING (R62). -/
def BayState.takesPostings : BayState → Bool
  | .running | .held | .closing => true
  | _ => false

/-- A result is appended, the running verdict is updated and the end-on-fail rule is applied (R62, R64, R66). -/
def postResult (b : BayId) (res : Result) (s : State) : State :=
  if (s.record b).state.takesPostings then
    let ends := res.verdict = .fail ∧ endOnFailOf s b = true
    mapRecord b (fun r => { r with
      results := r.results ++ [res], verdict := worse r.verdict res.verdict,
      endRequest := r.endRequest || decide ends }) s
  else s

/-- A result of the step in the current slot, completed now (R61). -/
def stepResult (s : State) (b : BayId) (kind : StepKind) (check : Check) (v : Verdict) (cause : Option Cause)
    (value1 value2 : Int) (notes : Notes) : Result :=
  { slot := (s.record b).slot.getD 0, kind := kind, check := check, verdict := v, cause := cause, value1 := value1,
    value2 := value2, notes := notes, completion := s.now }

end Sys2Proof.Machine
end

