-- ==== Sys2Proof/Machine/Drive.lean ====
section
/-! DEFINITION. The Drive Link: generator step, messages, enable, the jog stop and the wind-down (R72 to R93). -/

namespace Sys2Proof.Machine

/-- An absent latest report is taken as actual speed 0 (R72). -/
def DriveLink.latestSpeed (d : DriveLink) : Int := d.latest.elim 0 (·.speed)

/-- 5 rpm or less in magnitude: the rest of R28, R67, R90 and R136. -/
def DriveLink.atRest (d : DriveLink) : Bool := d.latestSpeed.natAbs ≤ 5

/-- x moves toward target × 1000 by the smaller of the ramp rate and the remaining distance (R79). -/
def generatorMove (x target : Int) (rate : Nat) : Int :=
  let goal := target * 1000
  if x ≤ goal then min (x + rate) goal else max (x - rate) goal

def DriveLink.generatorStep (d : DriveLink) : DriveLink := { d with x := generatorMove d.x d.target d.rampRate }

/-- The setpoint of the messages: x divided by 1000 and rounded toward zero (R73). -/
def DriveLink.setpoint (d : DriveLink) : Int := d.x.tdiv 1000

/-- With enable false the missed-report count is held at 0, and the next silence is a new one (R76). -/
def DriveLink.setEnable (e : Bool) (d : DriveLink) : DriveLink :=
  if e then { d with enable := true } else { d with enable := false, missed := 0, lostGiven := false }

/-- Enable removed, target and x set to 0, wind-down back to NONE: entry to FINISHED (R71, R91) and RETURN MANUAL (R28). -/
def DriveLink.halt (d : DriveLink) : DriveLink :=
  { d.setEnable false with target := 0, x := 0, windDown := .none }

/-- With owner CELL, enable is true while the jog target or x is non-zero (R75). -/
def DriveLink.manualEnable (d : DriveLink) : DriveLink := d.setEnable (d.jogTarget ≠ 0 || d.x ≠ 0)

/-- The message before is settled: unanswered it is missed, which counts while enable is true, up to 20 (R74, R76). -/
def DriveLink.settleMessage (d : DriveLink) : DriveLink :=
  if d.awaited.isSome && d.enable then { d with missed := min 20 (d.missed + 1) } else d

/-- The check at the end of a setpoint message, over its fields in the order of R73 (R73, R165; their byte layout is log 22's). -/
def messageCheck (sequence : Byte) (enable : Bool) (setpoint : Int) (torqueLimit : Nat) : BitVec 16 :=
  crc (sequence :: (byteOfBool enable ++ bytesOfInt 2 setpoint ++ bytesOf 2 torqueLimit))

/-- The check that a drive report without error ends with, over its fields in the order of R74 (R73, R165; their byte layout is
log 22's). -/
def reportCheck (echo : Byte) (state : DriveState) (speed torque : BitVec 16) : BitVec 16 :=
  crc (echo :: (bytesOf 1 (driveStateCode state) ++ bytesOf 2 speed.toNat ++ bytesOf 2 torque.toNat))

/-- One setpoint message is sent (R73). -/
def DriveLink.sendMessage (d : DriveLink) : DriveLink :=
  { d with
    sent := some ⟨d.sequence, d.enable, d.setpoint, d.torqueLimit, messageCheck d.sequence d.enable d.setpoint d.torqueLimit⟩,
    awaited := some d.sequence, sequence := d.sequence + 1 }

/-- The report age of one further millisecond (R107). -/
def DriveLink.ageReport (d : DriveLink) : DriveLink := { d with reportAge := min 65535 (d.reportAge + 1) }

/-- What a taken report does to the link before it is offered to the checks (R74). -/
def DriveLink.takeReport (rep : DriveReport) (d : DriveLink) : DriveLink :=
  { d with latest := some rep, missed := 0, reportAge := 0, awaited := none, lostGiven := false }

/-- The dwell accumulator takes the torque magnitude of a report other than a FAULT report (R86). -/
def DriveLink.accumulate (rep : DriveReport) (d : DriveLink) : DriveLink :=
  match d.dwell with
  | none => d
  | some acc =>
    if rep.state = .fault then d
    else
      let m := rep.torque.natAbs
      { d with dwell := some ⟨acc.count + 1, acc.sum + m, max acc.peak m⟩ }

/-- A jog stop (R93). -/
def jogStop (b : BayId) (s : State) : State :=
  mapDrive b (fun d =>
    if d.jogTarget = 0 then d
    else { d with jogTarget := 0, target := 0, rampRate := s.cell.stopRamp }.manualEnable) s

/-- The start of a wind-down (R89). -/
def startWindDown (b : BayId) (s : State) : State :=
  mapDrive b (fun d => { d with target := 0, rampRate := s.cell.stopRamp, windDown := .inProgress s.now }) s

/-- A wind-down in progress is over when x is 0 and the latest report shows rest; it is then latched (R90). -/
def DriveLink.examineWindDown (d : DriveLink) : DriveLink :=
  match d.windDown with
  | .inProgress _ => if d.x = 0 ∧ d.atRest = true then { d with windDown := .over } else d
  | _ => d

/-- The RAMP step's two conditions (R82). -/
def DriveLink.tracked (d : DriveLink) (o : RampOps) : Bool :=
  d.x == o.target * 1000 && ((d.latestSpeed - o.target).natAbs : Int) ≤ o.tolerance

/-- The torque result of a DWELL: mean rounded half up and peak, or NO_DATA (R86). -/
def torqueResult (s : State) (b : BayId) (o : DwellOps) (acc : DwellAccumulator) : Result :=
  if acc.count = 0 then stepResult s b .dwell .torque .invalid (some .noData) 0 0 Notes.none
  else
    let mean : Int := (acc.sum + acc.count / 2) / acc.count
    stepResult s b .dwell .torque (band mean o.torquePass o.torqueFail) none mean acc.peak Notes.none

/-- A pair of 0 and 0 turns a DWELL check off (R85). -/
def DwellOps.torqueOn (o : DwellOps) : Bool := !(o.torquePass == 0 && o.torqueFail == 0)
def DwellOps.riseOn (o : DwellOps) : Bool := !(o.risePass == 0 && o.riseFail == 0)

end Sys2Proof.Machine
end

