-- ==== Sys2Proof/Machine/Operands.lean ====
section
/-! DEFINITION. Operand resolution: every reference form, the clamp of each kind's operands, and the limit pairs (R47 to R53). -/

namespace Sys2Proof.Machine

/-! ## References (R49, R50) -/

/-- VARIANT i for an axle of `code`; none is the fault REFERENCE (R49). -/
def PlanStore.variantCell (st : PlanStore) (code i : Nat) : Option Int :=
  match st.variant code with
  | none => none
  | some v => v.cells[i]?

/-- INDIRECT i with `n` indirections still allowed; none is the fault REFERENCE (R50). -/
def PlanStore.resolveIndirect (st : PlanStore) (code : Nat) : Nat → Nat → Option Int
  | 0, _ => none
  | n + 1, i =>
    let v := st.commonAt i
    if 256 ≤ v ∧ v ≤ 271 then st.variantCell code (v - 256).toNat
    else if 512 ≤ v ∧ v ≤ 575 then some (st.commonAt (v - 512).toNat)
    else if 768 ≤ v ∧ v ≤ 831 then st.resolveIndirect code n (v - 768).toNat
    else none

/-- The value of a reference (R49, R50). -/
def PlanStore.resolve (st : PlanStore) (code : Nat) : Ref → Option Int
  | .immediate v => some v
  | .common i => some (st.commonAt i)
  | .variant i => st.variantCell code i
  | .indirect i => st.resolveIndirect code 3 i

/-- How many leading references a kind uses (02, The step record). -/
def refsUsed : StepKind → Nat
  | .ramp => 5
  | .dwell => 5
  | .listen => 10
  | .leak => 9

/-- The values of a list of references in order; none when one of them faults (R48, R51). -/
def PlanStore.resolveList (st : PlanStore) (code : Nat) : List Ref → Option (List Int)
  | [] => some []
  | r :: rs =>
    match st.resolve code r, st.resolveList code rs with
    | some v, some vs => some (v :: vs)
    | _, _ => none

/-- The values of the references that the step's kind uses, in order; one that faults faults the whole (R48, R51). -/
def PlanStore.resolveStep (st : PlanStore) (code : Nat) (r : StepRecord) : Option (List Int) :=
  st.resolveList code (r.refs.toList.take (refsUsed r.kind))

/-! ## Ranges (R47, R52) -/

/-- The range of each operand of a kind, with the bay's speed limit for a RAMP target (R47). -/
def operandRanges (speedLimit : Nat) : StepKind → List (Int × Int)
  | .ramp => [(-(speedLimit : Int), speedLimit), (10, 2000), (0, 20000), (5, 200), (100, 120000)]
  | .dwell => [(100, 600000), (0, 20000), (0, 20000), (0, 20000), (0, 20000)]
  | .listen =>
    [(4, 10), (5, 15), (0, 65535), (0, 65535), (0, 65535), (0, 65535), (0, 65535), (0, 65535), (0, 15), (1000, 120000)]
  | .leak =>
    [(5000, 60000), (2000, 40000), (1000, 60000), (0, 60000), (2, 60), (0, 65535), (0, 65535), (0, 500), (0, 2)]

/-- Each resolved value clamped into its range (R52). -/
def clampOperands (ranges : List (Int × Int)) (vs : List Int) : List Int :=
  List.zipWith (fun r v => clamp r.1 r.2 v) ranges vs

/-- The clamped values by name, as the step's kind uses them. -/
def operandsOf (kind : StepKind) (vs : List Int) : Operands :=
  let v := fun i => vs.getD i 0
  match kind with
  | .ramp => .ramp ⟨v 0, v 1, v 2, v 3, v 4⟩
  | .dwell => .dwell ⟨v 0, v 1, v 2, v 3, v 4⟩
  | .listen => .listen ⟨v 0, v 1, v 2, v 3, v 4, v 5, v 6, v 7, v 8, v 9⟩
  | .leak => .leak ⟨v 0, v 1, v 2, v 3, v 4, v 5, v 6, v 7, v 8⟩

/-! ## Limit pairs (R53) -/

/-- The first limit pair that is out of order, with the check it belongs to, its pass limit and its fail limit. -/
def pairOutOfOrder : Operands → Option (Check × Int × Int)
  | .ramp _ => none
  | .dwell o =>
    if o.torqueFail < o.torquePass then some (.torque, o.torquePass, o.torqueFail)
    else if o.riseFail < o.risePass then some (.temperature, o.risePass, o.riseFail)
    else none
  | .listen o =>
    if o.failM < o.passM then some (.noise, o.passM, o.failM)
    else if o.fail2M < o.pass2M then some (.noise, o.pass2M, o.fail2M)
    else none
  | .leak o => if o.failLimit < o.passLimit then some (.leak, o.passLimit, o.failLimit) else none

/-! ## Operands that an unreachable state lacks (log 17) -/

def ListenOps.zero : ListenOps := ⟨0, 0, 0, 0, 0, 0, 0, 0, 0, 0⟩
def LeakOps.zero : LeakOps := ⟨0, 0, 0, 0, 0, 0, 0, 0, 0⟩

end Sys2Proof.Machine
end

