-- ==== Sys2Proof/Machine/Sensor.lean ====
section
/-! DEFINITION. The Sensor Link: the fields of a sample word, justification, windows, means, silence and loss (R94 to R106). -/

namespace Sys2Proof.Machine

/-! ## Word fields (R95, R98) -/

/-- The 16-bit word of a PRESSURE or TEMPERATURE payload: bits 15..0. -/
def wordField (payload : BitVec 22) : BitVec 16 := payload.extractLsb' 0 16

/-- The angle index of a VIBRATION payload: bits 21..16. -/
def angleField (payload : BitVec 22) : Nat := (payload.extractLsb' 16 6).toNat

/-- The command that a 24-bit word on SDAT is, by its tag in bits 23..22 (R95). -/
def sampleWord (bay : BayId) (word : BitVec 24) : Instr :=
  let payload := word.extractLsb' 0 22
  match (word.extractLsb' 22 2).toNat with
  | 1 => .pressureWord bay payload
  | 2 => .temperatureWord bay payload
  | 3 => .vibrationWord bay payload
  | _ => .foreignTagWord bay payload

/-- The low `w` bits of the value field as a two's-complement number, times 2^(16-w) (R98). -/
def justify (w : Nat) (value : BitVec 16) : Int := (value.setWidth w).toInt * 2 ^ (16 - w)

/-! ## Windows (R94, R101 to R103) -/

/-- The new sample joins the tail, and the oldest is pushed out of a full window (R94). -/
def appendSample (w : List Sample) (x : Sample) : List Sample :=
  let w' := w ++ [x]
  w'.drop (w'.length - Config.windowLength)

def windowSum (w : List Sample) : Int := (w.map (·.word)).sum

/-- The mean is available when the window holds 16 samples (R103). -/
def windowFull (w : List Sample) : Bool := w.length == Config.windowLength

/-- Available since `t`: the head sample was taken at or after `t`, looking backward from the present cell time (R103). -/
def windowSince (now t : Time) (w : List Sample) : Bool :=
  windowFull w && (match w with
    | [] => false
    | x :: _ => elapsed now x.time ≤ elapsed now t)

/-- The 16-sample pressure mean in Pa (R101). -/
def pressureMean (w : List Sample) : Int := (windowSum w + 2) / 4

/-- The 16-sample temperature mean in cK (R102). -/
def temperatureMean (w : List Sample) : Int := (windowSum w + 8) / 16 + 27315

def SensorLink.pressureNow (l : SensorLink) : Option Int :=
  if windowFull l.pressure then some (pressureMean l.pressure) else none

def SensorLink.temperatureNow (l : SensorLink) : Option Int :=
  if windowFull l.temperature then some (temperatureMean l.temperature) else none

def SensorLink.pressureSince (l : SensorLink) (now t : Time) : Option Int :=
  if windowSince now t l.pressure then some (pressureMean l.pressure) else none

def SensorLink.temperatureSince (l : SensorLink) (now t : Time) : Option Int :=
  if windowSince now t l.temperature then some (temperatureMean l.temperature) else none

/-! ## Loss watch (R105, R106) -/

def pressureLossLimit : Nat := 100
def temperatureLossLimit : Nat := 1000

/-- The mark is cleared at a sample when neither timer stands at its limit (R106). -/
def LossWatch.reexamine (w : LossWatch) : LossWatch :=
  if w.pressureTimer < pressureLossLimit ∧ w.temperatureTimer < temperatureLossLimit then { w with mark := false } else w

/-- The loss watch as a HANDOVER starts it (R105). -/
def LossWatch.started : LossWatch := ⟨0, 0, false⟩

/-! ## What one event does to a link -/

/-- A PRESSURE word is taken (R96). -/
def SensorLink.takePressure (now : Time) (word : BitVec 16) (l : SensorLink) : SensorLink :=
  { l with
    pressure := appendSample l.pressure ⟨word.toNat, now⟩, pressureSilence := 0,
    lossWatch := l.lossWatch.map fun w => { w with pressureTimer := 0 }.reexamine }

/-- A TEMPERATURE word is taken, clamped into -4000..15000 (R97). -/
def SensorLink.takeTemperature (now : Time) (word : BitVec 16) (l : SensorLink) : SensorLink :=
  { l with
    temperature := appendSample l.temperature ⟨clamp (-4000) 15000 word.toInt, now⟩, temperatureSilence := 0,
    lossWatch := l.lossWatch.map fun w => { w with temperatureTimer := 0 }.reexamine }

/-- A justified VIBRATION sample is staged (R99). -/
def SensorLink.stageVibration (now : Time) (angle : Nat) (value : Int) (l : SensorLink) : SensorLink :=
  { l with vibration := some ⟨angle, value, now⟩, vibrationSilence := 0 }

/-- A discarded word raises the framing error count, which stops at 65535 (R95). -/
def SensorLink.framingError (l : SensorLink) : SensorLink := { l with framingErrors := min 65535 (l.framingErrors + 1) }

/-- The purge of a channel whose silence count stands at 65,535 (R100). -/
def SensorLink.purge (ch : SlowChannel) (l : SensorLink) : SensorLink :=
  match ch with
  | .pressure => if l.pressureSilence = 65535 then { l with pressure := [] } else l
  | .temperature => if l.temperatureSilence = 65535 then { l with temperature := [] } else l

/-- One further millisecond of silence counts and loss timers (R100, R105). -/
def SensorLink.count (l : SensorLink) : SensorLink :=
  { l with
    pressureSilence := min 65535 (l.pressureSilence + 1), temperatureSilence := min 65535 (l.temperatureSilence + 1),
    vibrationSilence := min 65535 (l.vibrationSilence + 1),
    lossWatch := l.lossWatch.map fun w =>
      { w with
        pressureTimer := min pressureLossLimit (w.pressureTimer + 1),
        temperatureTimer := min temperatureLossLimit (w.temperatureTimer + 1) } }

/-- One millisecond of a Sensor Link; a window is emptied in the event in which its count reaches 65,535 (R100, R105). -/
def SensorLink.tick (l : SensorLink) : SensorLink := (l.count.purge .pressure).purge .temperature

end Sys2Proof.Machine
end

