-- ==== Sys2Proof/Machine/Leak.lean ====
section
/-! DEFINITION. Actuator lines under the sequencer, the Manifold Arbiter, the Leak Unit and the leak arithmetic (R23 to R26, R130 to R150). -/

namespace Sys2Proof.Machine

/-! ## Sequencer values of the lines (R25) -/

/-- A DRIVEN line takes its sequencer value and a HELD line keeps its own; FILL is the arbiter's (R23, R25). -/
def sequencerLines (m : FunctionMap) (st : BayState) (ph : LeakPhase) (l : ActuatorLines) : ActuatorLines :=
  let value := fun (mode : LineMode) (driven kept : Bool) => if mode = .driven then driven else kept
  { clamp := value m.clamp true l.clamp
    couple := value m.couple true l.couple
    sealHeads := value m.sealHeads (ph ≠ .idle) l.sealHeads
    fill := l.fill
    vent := value m.vent (ph = .ambient ∨ ph = .vent ∨ st = .closing ∨ st = .aborting) l.vent }

/-- The Bay Controller sets the DRIVEN lines while the owner is SEQUENCER (R25). -/
def refreshLines (b : BayId) (s : State) : State :=
  let x := s.bay b
  if x.record.owner = .sequencer then
    mapRecord b (fun r => { r with lines := sequencerLines x.config.map r.state x.leak.phase r.lines }) s
  else s

/-! ## Phases (R135) -/

/-- The bay record's step phase equals the unit's phase while a LEAK step runs (R135). -/
def LeakPhase.step : LeakPhase → StepPhase
  | .idle => .none
  | .ambient => .ambient
  | .fillWait => .fillWait
  | .fill => .fill
  | .settle => .settle
  | .measure => .measure
  | .vent => .vent

/-- The unit enters a phase, which the bay record and the lines follow; P1 and T1 are absent until MEASURE takes them. -/
def enterLeakPhase (b : BayId) (ph : LeakPhase) (start : Option Time) (s : State) : State :=
  mapLeak b (fun u => { u with phase := ph, phaseStart := start, startMeans := none }) s
    |> mapRecord b (fun r => { r with phase := ph.step })
    |> refreshLines b

/-- The unit returns to its power-on values except for the highest fill sample (R135). -/
def LeakUnit.ended (u : LeakUnit) : LeakUnit := { LeakUnit.reset with highest := u.highest }

/-! ## The Manifold Arbiter (R130 to R134) -/

def setFill (b : BayId) (v : Bool) (s : State) : State :=
  mapRecord b (fun r => { r with lines := { r.lines with fill := v } }) s

/-- On the grant the unit enters FILL with the highest fill sample cleared (R139). -/
def enterFill (b : BayId) (s : State) : State :=
  enterLeakPhase b .fill (some s.now) (mapLeak b (fun u => { u with highest := none }) s)

/-- A FREE manifold is granted to the head of a queue that is not empty (R132). -/
def grantHead (s : State) : State :=
  match s.manifold.granted, s.manifold.queue with
  | none, b :: rest => enterFill b (setFill b true { s with manifold := { granted := some b, queue := rest } })
  | _, _ => s

/-- A request joins the tail (R131). -/
def requestManifold (b : BayId) (s : State) : State :=
  grantHead { s with manifold := { s.manifold with queue := s.manifold.queue ++ [b] } }

/-- The holder gives the manifold up and the next head is granted (R133). -/
def releaseManifold (b : BayId) (s : State) : State :=
  if s.manifold.granted = some b then
    grantHead (setFill b false { s with manifold := { s.manifold with granted := none } })
  else s

/-- A withdrawal: the bay leaves the queue, or gives its grant up (R134). -/
def withdrawManifold (b : BayId) (s : State) : State :=
  releaseManifold b { s with manifold := { s.manifold with queue := s.manifold.queue.filter (· ≠ b) } }

/-! ## The phases of a LEAK step -/

def State.leakOps (s : State) (b : BayId) : LeakOps := (s.bay b).leak.ops.getD LeakOps.zero
def State.ambient (s : State) (b : BayId) : Int := (s.bay b).leak.ambient.getD 0

/-- A LEAK result of the step in the current slot; with the result posted mark set none is posted (R146). -/
def postLeak (b : BayId) (v : Verdict) (cause : Option Cause) (value1 value2 : Int) (s : State) : State :=
  if (s.bay b).leak.posted then s
  else
    mapLeak b (fun u => { u with posted := true })
      (postResult b (stepResult s b .leak .leak v cause value1 value2 (s.bay b).leak.notes) s)

/-- VENT is entered (R147). -/
def enterVent (b : BayId) (s : State) : State := enterLeakPhase b .vent (some s.now) s

/-- MEASURE is entered: P1 and T1 since the step start, or SENSOR_SHORT (R142). -/
def enterMeasure (b : BayId) (s : State) : State :=
  let s := enterLeakPhase b .measure (some s.now) s
  let x := s.bay b
  let since := x.record.stepStart.getD s.now
  match x.sensor.pressureSince s.now since, x.sensor.temperatureSince s.now since with
  | some p, some t => mapLeak b (fun u => { u with startMeans := some (p, t) }) s
  | _, _ => enterVent b (postLeak b .invalid (some .sensorShort) 0 0 s)

/-- SETTLE is entered, and passed at once with a settle time of 0 (R141). -/
def enterSettle (b : BayId) (s : State) : State :=
  let s := enterLeakPhase b .settle (some s.now) s
  if (s.leakOps b).settleTime ≤ 0 then enterMeasure b s else s

/-- FILL_WAIT is entered with the request to the arbiter (R138). -/
def enterFillWait (b : BayId) (s : State) : State := requestManifold b (enterLeakPhase b .fillWait none s)

/-- AMBIENT asks for the pressure mean since the phase began; the first that is given ends the phase (R137). -/
def askAmbient (b : BayId) (s : State) : State :=
  let x := s.bay b
  match x.sensor.pressureSince s.now (x.leak.phaseStart.getD s.now) with
  | some p => enterFillWait b (mapLeak b (fun u => { u with ambient := some p }) s)
  | none => s

/-- AMBIENT is entered and asks at once (R136, R137). -/
def enterAmbient (b : BayId) (o : LeakOps) (s : State) : State :=
  askAmbient b (enterLeakPhase b .ambient (some s.now) (mapLeak b (fun u => { u with ops := some o }) s))

/-- A sample offered in FILL: the highest is kept, and the first at Pamb + Pt ends the fill (R139). -/
def fillSample (b : BayId) (p : Int) (s : State) : State :=
  let s := mapLeak b (fun u => { u with highest := some (max p (u.highest.getD p)) }) s
  if s.ambient b + (s.leakOps b).pressure ≤ p then enterSettle b (releaseManifold b s) else s

/-! ## Leak arithmetic (R144, R145) -/

/-- P2 × T1 / T2 rounded half up (R144). -/
def compensated (p2 t1 t2 : Int) : Int := (p2 * t1 + t2 / 2) / t2

/-- The unclamped rate for a decay at or above 0 (R145). -/
def rawRate (dp volume tm : Int) : Int :=
  let d := 101325 * tm
  (dp * volume * 6000 + d / 2) / d

/-- Q with the notes GAIN and SATURATED_Q (R145). -/
def leakRate (dp volume tm : Int) (notes : Notes) : Int × Notes :=
  if dp < 0 then (0, { notes with gain := true })
  else if 65535 < rawRate dp volume tm then (65535, { notes with saturatedQ := true })
  else (rawRate dp volume tm, notes)

/-- A stable measure: the result is computed and posted, and the step vents (R144 to R146). -/
def computeLeak (b : BayId) (p1 t1 p2 t2 : Int) (s : State) : State :=
  let o := s.leakOps b
  let dp := p1 - compensated p2 t1 t2
  let (q, notes) := leakRate dp o.volume o.measureTime (s.bay b).leak.notes
  let s := mapLeak b (fun u => { u with notes := notes }) s
  let v := if notes.saturatedQ then .fail else band q o.passLimit o.failLimit
  enterVent b (postLeak b v none q (clamp (-32768) 32767 dp) s)

/-- The end of the measure time: P2 and T2, then the stability check (R143). That the SENSOR_SHORT result of a missing mean carries the notes
held so far is log 37's. -/
def endMeasure (b : BayId) (p1 t1 : Int) (s : State) : State :=
  let x := s.bay b
  let o := s.leakOps b
  match x.sensor.pressureNow, x.sensor.temperatureNow with
  | some p2, some t2 =>
    if ((t2 - t1).natAbs : Int) ≤ o.deltaTMax then computeLeak b p1 t1 p2 t2 s
    else if (x.leak.retryCount : Int) < o.retries then
      enterSettle b (mapLeak b (fun u =>
        { u with retryCount := u.retryCount + 1, notes := { u.notes with retried := true } }) s)
    else enterVent b (postLeak b .invalid (some .unstable) (t2 - t1) x.leak.retryCount s)
  | _, _ => enterVent b (postLeak b .invalid (some .sensorShort) 0 0 s)

/-- The fill limit's expiry: GROSS_LEAK is posted and the step vents (R140). -/
def failFill (b : BayId) (s : State) : State :=
  let s := releaseManifold b s
  let rise := (s.bay b).leak.highest.elim 0 (· - s.ambient b)
  enterVent b (postLeak b .fail (some .grossLeak) 65535 rise s)

/-- The LEAK step's side of an abort: withdrawal and return to IDLE (R150); the lines follow in the abort itself. -/
def endLeak (b : BayId) (s : State) : State :=
  withdrawManifold b (mapLeak b LeakUnit.ended s)

end Sys2Proof.Machine
end

