-- ==== Sys2Proof/Machine/Reduction.lean ====
section
/-! DEFINITION. The reduction arithmetic of the Order Reducer (R125 to R129). -/

namespace Sys2Proof.Machine

/-- The first 17 entries of cosT (R126). -/
def cosineQuarter : List Int :=
  [16384, 16305, 16069, 15679, 15137, 14449, 13623, 12665, 11585, 10394, 9102, 7723, 6270, 4756, 3196, 1606, 0]

/-- cosT[i] for i = 0..32: the quarter, then its negative mirrored (R126). -/
def cosineHalf (i : Nat) : Int := if i ≤ 16 then cosineQuarter.getD i 0 else -(cosineQuarter.getD (32 - i) 0)

/-- cosT[i mod 64] (R126). -/
def cosT (i : Nat) : Int :=
  let j := i % 64
  if j ≤ 32 then cosineHalf j else cosineHalf (64 - j)

/-- sinT[i] = cosT[(i - 16) mod 64] (R126). -/
def sinT (i : Nat) : Int := cosT (i + 48)

/-- The average of a lane over 2^k rows, rounded half up (R125). -/
def laneAverage (k : Nat) (lane : Int) : Int := (lane + 2 ^ (k - 1)) / 2 ^ k

/-- The correlation of the averaged revolution with a table at order `q` (R127). -/
def correlate (table : Nat → Int) (k q : Nat) (lanes : Vector Int Config.laneCount) : Int :=
  (lanes.toList.zipIdx.map fun p => laneAverage k p.1 * table (q * p.2)).sum

/-- The level from the two correlations (R128). -/
def levelOf (c t : Int) : Int :=
  let u := max c.natAbs t.natAbs
  let v := min c.natAbs t.natAbs
  ((u + v / 2 + 262144) / 524288 : Nat)

/-- The level at order `q` (R125 to R128). -/
def level (k q : Nat) (lanes : Vector Int Config.laneCount) : Int :=
  levelOf (correlate cosT k q lanes) (correlate sinT k q lanes)

/-- The net level: the baseline taken off, never below 0 (R129). -/
def netLevel (lv baseline : Int) : Int := max 0 (lv - baseline)

/-- The noise result of a buffer at its completion (R129). -/
def noiseResult (buf : ListenBuffer) (now : Time) : Result :=
  let o := buf.ops.getD ListenOps.zero
  let k := o.exponent.toNat
  let m := o.order.toNat
  let netM := netLevel (level k m buf.lanes) o.baseM
  let net2M := netLevel (level k (2 * m) buf.lanes) o.base2M
  { slot := buf.slot.getD 0, kind := .listen, check := .noise,
    verdict := worse (band netM o.passM o.failM) (band net2M o.pass2M o.fail2M), cause := none,
    value1 := netM, value2 := net2M, notes := Notes.none, completion := now }

end Sys2Proof.Machine
end

