-- ==== Sys2Proof/Machine/Noise.lean ====
section
/-! DEFINITION. Listen buffers, row assembly, the reducer queue and its engine (R108 to R124). -/

namespace Sys2Proof.Machine

/-! ## Buffers (R108) -/

def NoiseUnit.get (n : NoiseUnit) : BufId → ListenBuffer
  | .a0 => n.a0
  | .a1 => n.a1

def NoiseUnit.set (n : NoiseUnit) (k : BufId) (x : ListenBuffer) : NoiseUnit :=
  match k with
  | .a0 => { n with a0 := x }
  | .a1 => { n with a1 := x }

def mapBuf (b : BayId) (k : BufId) (f : ListenBuffer → ListenBuffer) (s : State) : State :=
  mapNoise b (fun n => n.set k (f (n.get k))) s

def State.buf (s : State) (b : BayId) (k : BufId) : ListenBuffer := (s.bay b).noise.get k

/-- A buffer that becomes FREE clears operands, slot and discard mark and keeps its lanes and counts (R108). -/
def ListenBuffer.freed (x : ListenBuffer) : ListenBuffer :=
  { x with state := .free, acquisitionStart := none, ops := none, slot := none, discard := false }

/-- A buffer of the bay in a given state; A0 when both are (R110). -/
def NoiseUnit.find (n : NoiseUnit) (st : BufState) : Option BufId :=
  if n.a0.state = st then some .a0 else if n.a1.state = st then some .a1 else none

/-- A FREE buffer becomes ACQUIRING (R110). -/
def ListenBuffer.acquire (now : Time) (ops : ListenOps) (slot : Option Nat) : ListenBuffer :=
  { state := .acquiring, lanes := Vector.replicate _ 0, revolutions := 0, slips := 0, saturated := false,
    acquisitionStart := some now, ops := some ops, slot := slot, discard := false }

/-- The row state returns to IDLE with the staging row emptied (R109). -/
def NoiseUnit.rowIdle (n : NoiseUnit) : NoiseUnit := { n with row := .idle, staging := [] }

/-- The row state becomes HUNTING with the staging row empty (R109). -/
def NoiseUnit.rowHunting (n : NoiseUnit) : NoiseUnit := { n with row := .hunting, staging := [] }

/-! ## Accumulation (R113, R115) -/

/-- a = (j - angle offset) mod 64 (R113). -/
def laneOf (angle offset : Nat) : Nat := (((angle : Int) - offset) % 64).toNat

/-- The range of an accumulator lane (R115). -/
def clampLane (v : Int) : Int := clamp (-8388608) 8388607 v

/-- A complete row is added lane by lane, each sum clamped; the saturation flag is set if a clamp changed a sum (R115). -/
def ListenBuffer.addRow (row : List Int) (x : ListenBuffer) : ListenBuffer :=
  { x with
    lanes := Vector.ofFn fun i => clampLane (x.lanes[i] + row.getD i.val 0),
    revolutions := x.revolutions + 1,
    saturated := x.saturated || (x.lanes.toList.zip row).any fun p => clampLane (p.1 + p.2) != p.1 + p.2 }

/-! ## The reducer queue and engine (R119 to R124) -/

/-- An IDLE engine takes the head of a queue that is not empty (R121). -/
def engineTake (s : State) : State :=
  match s.reducer.engine, s.reducer.queue with
  | none, (b, k) :: rest =>
    mapBuf b k (fun x => { x with state := .reducing })
      { s with reducer := { queue := rest, engine := some ⟨b, k, s.now⟩ } }
  | _, _ => s

/-- A full buffer becomes QUEUED, joins the tail and raises its bay's count (R116, R120). -/
def joinReducer (b : BayId) (k : BufId) (s : State) : State :=
  let s := mapBuf b k (fun x => { x with state := .queued, acquisitionStart := none }) s
  let s := mapRecord b (fun r => { r with pendingReductions := r.pendingReductions + 1 }) s
  { s with reducer := { s.reducer with queue := s.reducer.queue ++ [(b, k)] } }

/-- A full buffer joins the reducer queue, and the engine takes it if it can (R116, R120, R121). -/
def enqueueBuffer (b : BayId) (k : BufId) (s : State) : State := engineTake (joinReducer b k s)

/-- The buffer of a completed reduction becomes FREE, its bay's count is lowered, and the engine becomes IDLE (R122, R124). -/
def freeReduced (j : EngineJob) (s : State) : State :=
  let s := mapBuf j.bay j.buf ListenBuffer.freed s
  let s := mapRecord j.bay (fun r => { r with pendingReductions := r.pendingReductions - 1 }) s
  { s with reducer := { s.reducer with engine := none } }

/-- A QUEUED buffer is cancelled, and a REDUCING one is marked for discard (R123, R124). -/
def cancelBuffer (b : BayId) (k : BufId) (s : State) : State :=
  match (s.buf b k).state with
  | .queued =>
    let s := mapBuf b k ListenBuffer.freed s
    let s := mapRecord b (fun r => { r with pendingReductions := r.pendingReductions - 1 }) s
    { s with reducer := { s.reducer with queue := s.reducer.queue.filter (· ≠ (b, k)) } }
  | .reducing => mapBuf b k (fun x => { x with discard := true }) s
  | _ => s

/-- What an abort, and DRIVE_STUCK out of CLOSING, does to the bay's reductions (R123, R124). -/
def cancelReductions (b : BayId) (s : State) : State := cancelBuffer b .a1 (cancelBuffer b .a0 s)

/-- An acquisition in progress ends with its buffer FREE and no result (R118). -/
def stopAcquisition (b : BayId) (s : State) : State :=
  mapNoise b (fun n =>
    match n.find .acquiring with
    | some k => (n.set k (n.get k).freed).rowIdle
    | none => n.rowIdle) s

end Sys2Proof.Machine
end

