-- ==== Sys2Proof/Machine/Reports.lean ====
section
/-! DEFINITION. Reports: building, commit, the waiting list, the backlog check, and the cell's way out of STOPPING (R2, R151 to R162). -/

namespace Sys2Proof.Machine

/-- The successor of a sequence number; that of 4,294,967,295 is 1 (R153). -/
def nextSequenceOf (n : Nat) : Nat := if n ≥ 4294967295 then 1 else n + 1

/-- The report of a bay entering FINISHED, built from its record (R151, R152). -/
def buildReport (b : BayId) (verdict : FinalVerdict) (s : State) : Report :=
  let r := s.record b
  { sequence := none, bay := b, serial := r.serial.getD [], variantCode := r.variantCode,
    planNumber := r.planNumber.getD 0, planVersion := r.planVersion.getD 0, verdict := verdict, cause := r.cause,
    secondary := r.secondary, audit := r.audit, adjusted := r.adjusted, handoverTime := r.handoverTime,
    finishTime := s.now, results := r.results }

/-- The backlog check (R162). -/
def backlogCheck (s : State) : State :=
  if s.cell.backlogThreshold ≤ s.reports.queue.length then
    if s.reports.backlog then s
    else raise .backlog { s with reports := { s.reports with backlog := true } }
  else { s with reports := { s.reports with backlog := false } }

/-- One commit: the report takes the next sequence number and joins the tail, the bay's status becomes COMMITTED, the notices are
raised and the backlog check is made (R155). -/
def commit (b : BayId) (rep : Report) (s : State) : State :=
  let n := s.reports.nextSequence
  let queued := { s.reports with queue := s.reports.queue ++ [{ rep with sequence := some n }], nextSequence := nextSequenceOf n }
  { s with reports := queued }
    |> mapRecord b (fun r => { r with reportStatus := .committed })
    |> raise (.readyToRelease b)
    |> raise .reportAvailable
    |> backlogCheck

/-- The Report Queue takes the report of a bay entering FINISHED: committed at once, or waiting behind 16 reports (R154). -/
def handReport (b : BayId) (rep : Report) (s : State) : State :=
  if s.reports.queue.length < Config.reportCapacity then commit b rep s
  else { s with reports := { s.reports with waiting := s.reports.waiting ++ [⟨b, rep⟩] } }
    |> mapRecord b (fun r => { r with reportStatus := .waiting })

/-- The event of an accepted TAKE REPORT (R160): the head leaves, and the head of the waiting list is committed if there is one. -/
def takeHead (s : State) : State :=
  let s := { s with reports := { s.reports with queue := s.reports.queue.drop 1 } }
  match s.reports.waiting with
  | [] => backlogCheck s
  | w :: ws => commit w.bay w.report { s with reports := { s.reports with waiting := ws } }

/-- In STOPPING, a bay leaves sequencer ownership at FINISHED; with no other bay so owned the cell enters STOPPED (R2). -/
def cellStopCheck (s : State) : State :=
  if s.cell.state = .stopping ∧ anySequenced s = false then setCellState .stopped s else s

end Sys2Proof.Machine
end

