-- ==== Sys2Proof/Machine/Lifecycle.lean ====
section
/-! DEFINITION. Leaving a plan: FINISHED, CLOSING, ABORTING, HELD, and what a fault does in each bay state (R16, R20, R21, R67 to R71). -/

namespace Sys2Proof.Machine

/-! ## FINISHED (R71) -/

/-- Entry into FINISHED from CLOSING or ABORTING, in one event (R71). -/
def finishBay (b : BayId) (verdict : FinalVerdict) (s : State) : State :=
  let s := mapDrive b DriveLink.halt s
  let s := mapSensor b (fun l => { l with lossWatch := none }) s
  let s := mapRecord b (fun r => { r with phase := .none, holdPoint := none }) s
  let s := releaseReference (s.record b).planNumber s
  let s := setBayState b .finished (setOwner b .line s)
  cellStopCheck (handReport b (buildReport b verdict s) s)

/-- A diverted axle enters FINISHED straight from LOADED (R12, R13). -/
def divertBay (b : BayId) (cause : Cause) (s : State) : State :=
  let s := setBayState b .finished (mapRecord b (fun r => { r with cause := some cause }) s)
  handReport b (buildReport b .diverted s) s

/-- A bay in CLOSING whose two conditions are met finishes with the worst verdict of its list (R68). -/
def finishClosing (b : BayId) (s : State) : State :=
  finishBay b (closingVerdict (worstOf (s.record b).results)) s

/-- A bay in ABORTING whose wind-down is over finishes (R70). -/
def finishAborting (b : BayId) (s : State) : State :=
  finishBay b (abortVerdict (s.record b).cause (s.record b).secondary) s

/-- With the wind-down OVER, ABORTING ends, and CLOSING ends once no reduction is pending (R67, R70, R90). -/
def settleEnding (b : BayId) (s : State) : State :=
  if (s.bay b).drive.windDown = .over then
    match (s.record b).state with
    | .aborting => finishAborting b s
    | .closing => if (s.record b).pendingReductions = 0 then finishClosing b s else s
    | _ => s
  else s

/-- The wind-down is examined, and the bay acts on it in the same event (R90). -/
def examineEnding (b : BayId) (s : State) : State := settleEnding b (mapDrive b DriveLink.examineWindDown s)

/-! ## CLOSING (R67) -/

/-- Entry into CLOSING; the two conditions are examined on entry (R67). -/
def enterClosing (b : BayId) (s : State) : State :=
  let s := mapRecord b (fun r =>
    { r with phase := .none, holdRequest := false, holdPoint := none, latched := none, startTemperature := none }) s
  let s := setBayState b .closing s
  examineEnding b (refreshLines b (startWindDown b s))

/-! ## HELD (R16, R55) -/

/-- Entry into HELD at a hold point (R16, R55). -/
def enterHeld (b : BayId) (point : HoldPoint) (s : State) : State :=
  setBayState b .held (mapRecord b (fun r =>
    { r with holdRequest := false, holdStart := some s.now, holdPoint := some point, phase := .none }) s)

/-! ## ABORTING (R20, R21) -/

/-- Entry into ABORTING with a cause from RUNNING, HELD or CLOSING (R20, R70, R118, R123, R150). -/
def enterAborting (b : BayId) (cause : Cause) (s : State) : State :=
  let fromClosing := (s.record b).state = .closing
  let s := mapRecord b (fun r =>
    { r with
      cause := some cause, holdRequest := false, endRequest := false, phase := .none, holdPoint := none, latched := none,
      startTemperature := none }) s
  let s := setBayState b .aborting s
  let s := raise (if cause.isCommand then .aborted b else .fault b) s
  let s := stopAcquisition b (endLeak b (cancelReductions b s))
  let s := mapDrive b (fun d => { d with dwell := none }) s
  let s := if fromClosing then s else startWindDown b s
  examineEnding b (refreshLines b s)

/-- The first fault during an abort is recorded and later ones change nothing (R21). -/
def recordSecondary (b : BayId) (f : Cause) (s : State) : State :=
  mapRecord b (fun r => { r with secondary := some (r.secondary.getD f) }) s

/-- A fault taken by the Bay Controller (R20, R21, R78, R106). -/
def takeFault (b : BayId) (f : Cause) (s : State) : State :=
  match (s.record b).state with
  | .running | .held | .closing => enterAborting b f s
  | .aborting => recordSecondary b f s
  | _ => s

/-! ## EMPTY (R7, R15) -/

/-- Every field at its EMPTY value but the owner, the line values and the pending reduction count (R7). -/
def BayRecord.cleared (r : BayRecord) : BayRecord :=
  { BayRecord.reset with owner := r.owner, lines := r.lines, inputs := r.inputs, pendingReductions := r.pendingReductions }

/-- The bay enters EMPTY (R15). -/
def enterEmpty (b : BayId) (s : State) : State := setBayState b .empty (mapRecord b BayRecord.cleared s)

end Sys2Proof.Machine
end

