-- ==== Sys2Proof/Machine/Walk.lean ====
section
/-! DEFINITION. Walking a plan: step boundaries, step entry, skip tests, the start of each kind's work, and what wakes a waiting
bay (R54 to R60, R81, R85, R110 to R112, R136). A function that may end the step at once answers true beside the state when it
did. -/

namespace Sys2Proof.Machine

/-! ## Skip tests (R57 to R59) -/

/-- IF_CLEAN, UNLESS_CLEAN and IF_LAST_PASS wait for pending reductions (R57). -/
def skipWaits : SkipTest → Bool
  | .ifClean | .unlessClean | .ifLastPass => true
  | .run | .audit => false

/-- Whether a test other than AUDIT lets the step run (R57). -/
def skipRuns (t : SkipTest) (r : BayRecord) : Bool :=
  match t with
  | .run | .audit => true
  | .ifClean => r.verdict ≠ .pass
  | .unlessClean => r.verdict = .pass
  | .ifLastPass => (r.results.getLast?).elim true (fun x => x.verdict ≠ .pass)

/-- The skip test of a step, with the decrement and the audit flag of AUDIT (R57, R59). -/
def skipTest (b : BayId) (rec : StepRecord) (s : State) : Bool × State :=
  match rec.skip with
  | .audit =>
    let out := s.store.auditDecrement (rec.auditCell.getD 56)
    (out.1, mapRecord b (fun r => { r with audit := r.audit || out.1 }) { s with store := out.2 })
  | t => (skipRuns t (s.record b), s)

/-! ## The start of each kind's work -/

def setPhase (b : BayId) (ph : StepPhase) (s : State) : State := mapRecord b (fun r => { r with phase := ph }) s

/-- R81, R82. -/
def startRamp (b : BayId) (o : RampOps) (s : State) : Bool × State :=
  let s := mapDrive b (fun d => { d with target := o.target, rampRate := o.rate.toNat, torqueLimit := o.torque.toNat }) s
  let d := (s.bay b).drive
  if d.tracked o then (true, s)
  else if d.x = o.target * 1000 then (false, setPhase b .tracking s)
  else (false, setPhase b .ramping s)

/-- R85. -/
def startDwell (b : BayId) (o : DwellOps) (s : State) : Bool × State :=
  let s := if o.torqueOn then mapDrive b (fun d => { d with dwell := some ⟨0, 0, 0⟩ }) s else s
  let t := if o.riseOn then (s.bay b).sensor.temperatureNow else none
  (false, setPhase b .dwelling (mapRecord b (fun r => { r with startTemperature := t }) s))

/-- R110, R112: with no FREE buffer the step waits; else the speed check ends it with TOO_SLOW or a buffer is taken. -/
def startListen (b : BayId) (o : ListenOps) (s : State) : Bool × State :=
  let x := s.bay b
  match x.noise.find .free with
  | none => (false, setPhase b .bufferWait s)
  | some k =>
    if x.drive.latestSpeed.natAbs < 60 then
      (true, postResult b (stepResult s b .listen .noise .invalid (some .tooSlow) x.drive.latestSpeed 0 Notes.none) s)
    else
      let s := mapNoise b (fun n => (n.set k (ListenBuffer.acquire s.now o x.record.slot)).rowHunting) s
      (false, setPhase b .listening s)

/-- R136: the two preconditions, then AMBIENT. -/
def startLeak (b : BayId) (o : LeakOps) (s : State) : Bool × State :=
  let x := s.bay b
  if x.drive.target ≠ 0 ∨ x.drive.atRest = false then
    (true, postResult b
      (stepResult s b .leak .leak .invalid (some .planConflict) x.drive.target x.drive.latestSpeed Notes.none) s)
  else if x.config.map.sealHeads = .held ∨ x.config.map.vent = .held then
    (true, postResult b (stepResult s b .leak .leak .invalid (some .linesHeld) 0 0 Notes.none) s)
  else (false, enterAmbient b o s)

/-- The block of the step's kind takes the latched operands (R60). -/
def startWork (b : BayId) (ops : Operands) (s : State) : Bool × State :=
  match ops with
  | .ramp o => startRamp b o s
  | .dwell o => startDwell b o s
  | .listen o => startListen b o s
  | .leak o => startLeak b o s

/-! ## Step entry (R57, R60) -/

/-- Resolution, clamping, the limit pairs, and the step's start (R48, R51 to R53, R60). -/
def beginStep (b : BayId) (rec : StepRecord) (s : State) : Bool × State :=
  match s.store.resolveStep (s.record b).variantCode rec with
  | none => (false, takeFault b .reference s)
  | some vs =>
    let clamped := clampOperands (operandRanges (s.bay b).config.speedLimit rec.kind) vs
    let s := mapRecord b (fun r => { r with adjusted := r.adjusted || clamped != vs }) s
    let ops := operandsOf rec.kind clamped
    match pairOutOfOrder ops with
    | some (check, pass, fail) =>
      (true, postResult b (stepResult s b rec.kind check .invalid (some .limitOrder) pass fail Notes.none) s)
    | none => startWork b ops (mapRecord b (fun r => { r with stepStart := some s.now, latched := some ops }) s)

/-- Entry of the step in slot `k`: its skip test waits, skips it or lets it run (R57, R58). -/
def enterStep (b : BayId) (k : Nat) (rec : StepRecord) (s : State) : Bool × State :=
  let s := mapRecord b (fun r => { r with slot := some k, phase := .none }) s
  if skipWaits rec.skip && (s.record b).pendingReductions ≠ 0 then (false, setPhase b .entryWait s)
  else
    let out := skipTest b rec s
    if out.1 then beginStep b rec out.2 else (true, out.2)

/-! ## Step boundaries (R54, R55) -/

/-- The boundary of R55 with the link to follow, and the boundaries that skipped and at once ended steps reach in the same event.
A published chain has at most 64 steps, so `fuel` 256 never runs out (R36, R54; log 17). -/
def walk : Nat → BayId → Nat → State → State
  | 0, b, _, s => enterClosing b s
  | fuel + 1, b, link, s =>
    if (s.record b).endRequest then enterClosing b s
    else if (s.record b).holdRequest then enterHeld b .after s
    else if link = Config.endLink then enterClosing b s
    else match s.store.slotAt link with
      | none => enterClosing b s
      | some o =>
        let out := enterStep b link o.record s
        if out.1 then
          walk fuel b o.record.next
            (mapRecord b (fun r => { r with phase := .none, latched := none, startTemperature := none }) out.2)
        else out.2

/-- The boundary with the link to follow. -/
def boundary (b : BayId) (link : Nat) (s : State) : State := walk 256 b link s

/-- The next link of the step in the current slot (R54). -/
def nextLink (b : BayId) (s : State) : Nat :=
  match (s.record b).slot with
  | none => Config.endLink
  | some k => (s.store.slotAt k).elim Config.endLink (·.record.next)

/-- A step that ran comes to its end and the bay reaches a boundary in the same event (R54). -/
def endStep (b : BayId) (s : State) : State :=
  boundary b (nextLink b s)
    (mapRecord b (fun r => { r with phase := .none, latched := none, startTemperature := none }) s)

/-- Goes on from a start of work that may have ended the step. -/
def afterStart (b : BayId) (out : Bool × State) : State := if out.1 then endStep b out.2 else out.2

/-! ## What a completion wakes (R58, R67, R111) -/

/-- A bay whose pending count has just been lowered and whose buffer has become FREE goes on (R58, R67, R111). -/
def wakeBay (b : BayId) (s : State) : State :=
  let r := s.record b
  match r.state with
  | .closing => settleEnding b s
  | .running =>
    if r.phase = .bufferWait then
      match r.latched with
      | some (.listen o) => afterStart b (startListen b o s)
      | _ => s
    else if r.phase = .entryWait ∧ (r.endRequest = true ∨ r.pendingReductions = 0) then
      boundary b (r.slot.getD Config.endLink) s
    else s
  | _ => s

/-! ## Ramp tracking (R82) -/

/-- A RAMP step examines its two conditions: it ends, or passes from RAMPING to TRACKING (R82). -/
def examineRamp (b : BayId) (s : State) : State :=
  let r := s.record b
  if r.phase = .ramping ∨ r.phase = .tracking then
    match r.latched with
    | some (.ramp o) =>
      if (s.bay b).drive.tracked o then endStep b s
      else if (s.bay b).drive.x = o.target * 1000 then setPhase b .tracking s
      else s
    | _ => s
  else s

end Sys2Proof.Machine
end

