-- ==== Sys2Proof/Machine/Requests.lean ====
section
/-! DEFINITION. What every port command shares: the reply, the ports that carry it, and the response its port prepares (R9, R168, R169). -/

namespace Sys2Proof.Machine

/-- A command's answer and the state after it. -/
structure Reply where
  status : Status
  payload : List Byte
  state : State

/-- An accepted command (R169). -/
def accept (payload : List Byte) (s : State) : Reply := ⟨.ok, payload, s⟩

/-- A refused command changes no state and carries an empty payload (R9, R169). -/
def refuse (st : Status) (s : State) : Reply := ⟨st, [], s⟩

/-- A bay number outside 0..3 is refused with BAD_ARGUMENT before anything else is looked at (R9). -/
def onBay (n : Nat) (f : BayId → State → Reply) (s : State) : Reply :=
  match bayOfCode n with
  | some b => f b s
  | none => refuse .badArgument s

/-- A plan number outside 1..16 is refused with BAD_ARGUMENT (R30, R34 to R40). -/
def onPlan (n : Nat) (f : State → Reply) (s : State) : Reply :=
  if isPlanNumber n then f s else refuse .badArgument s

/-- The tag of the port's dispatched request when it is this command, 0 for a command that no frame brought (log 10). -/
def tagOf (p : Port) (cmd : Instr) : Byte :=
  match p.request with
  | some (t, c) => if c = cmd then t else 0
  | none => 0

/-- The port takes the answer of its command's execution: the response is built with the NOTICE flag as the pending set stands in this
event (R168), and the request it answers is no longer waiting. -/
def Port.prepare (cmd : Instr) (st : Status) (payload : List Byte) (p : Port) : Port :=
  { p with
    preparing := some ⟨st, tagOf p cmd, !p.notices.isEmpty, payload⟩,
    request := match p.request with
      | some (t, c) => if c = cmd then none else some (t, c)
      | none => none }

/-- A command executed in one event at its owning block: refused with WRONG_PORT on a port that does not carry it, else as its rule
gives (R168). Its response is built from the state it leaves, so the NOTICE flag shows the pending set after the command's own changes
and notices (log 36). -/
def serve (p : PortId) (cmd : Instr) (body : State → Reply) (s : State) : State :=
  let out := if p ∈ carriedOn cmd then body s else refuse .wrongPort s
  mapPort p (Port.prepare cmd out.status out.payload) out.state

end Sys2Proof.Machine
end

