-- ==== Sys2Proof/Machine/BayCommands.lean ====
section
/-! DEFINITION. The bay commands of the line controller and the cell computer (R8 to R28, R92, R93, R107). -/

namespace Sys2Proof.Machine

/-! ## PRESENT (R10) -/

def runPresent (serial : List Byte) (code : Nat) (b : BayId) (s : State) : Reply :=
  if serial.length < 1 ∨ 20 < serial.length ∨ 65535 < code then refuse .badArgument s
  else if (s.record b).owner = .cell then refuse .owned s
  else if (s.record b).state ≠ .empty then refuse .wrongState s
  else if (s.record b).inputs.pres = false then refuse .noAxle s
  else
    accept [] (setBayState b .loaded
      (mapRecord b (fun r => { r.cleared with serial := some serial, variantCode := code }) s))

def execPresent (p : PortId) (n : Nat) (serial : List Byte) (code : Nat) (s : State) : Host.Outcome State Fault Refusal :=
  .next (serve p (.present p n serial code) (onBay n (runPresent serial code)) s)

/-! ## HANDOVER (R11, R12) -/

/-- The variant is found: reference, copies, ownership, loss watch, enable, lines, and the first boundary (R12, R54, R75, R105). -/
def startPlan (b : BayId) (v : VariantEntry) (s : State) : State :=
  let e := s.store.entry v.plan
  let s := takeReference v.plan s
  let s := mapRecord b (fun r => { r with planNumber := some v.plan, planVersion := some e.version, slot := e.head }) s
  let s := setBayState b .running (setOwner b .sequencer s)
  let s := mapSensor b (fun l => { l with lossWatch := some LossWatch.started }) s
  let s := mapDrive b (fun d => { d with enable := true, target := 0, x := 0 }) s
  boundary b (e.head.getD Config.endLink) (refreshLines b s)

def runHandover (b : BayId) (s : State) : Reply :=
  let r := s.record b
  if r.owner = .cell then refuse .owned s
  else if r.state ≠ .loaded then refuse .wrongState s
  else if s.cell.state ≠ .running then refuse .cellStopped s
  else if r.inputs.grd = false then refuse .guardOpen s
  else if r.inputs.clmp = false ∨ r.inputs.cpld = false then refuse .notClamped s
  else
    let s := mapRecord b (fun r => { r with handoverTime := some s.now }) s
    match s.store.variant r.variantCode with
    | some v => accept (bytesOf 1 (bayStateCode .running)) (startPlan b v s)
    | none => accept (bytesOf 1 (bayStateCode .finished)) (divertBay b .unknownVariant s)

def execHandover (p : PortId) (n : Nat) (s : State) : Host.Outcome State Fault Refusal :=
  .next (serve p (.handover p n) (onBay n runHandover) s)

/-! ## WITHDRAW, RELEASE, ABORT (R13, R14, R19) -/

def runWithdraw (b : BayId) (s : State) : Reply :=
  if (s.record b).owner = .cell then refuse .owned s
  else match (s.record b).state with
    | .loaded => accept [] (divertBay b .withdrawn s)
    | .running | .held | .closing => accept [] (enterAborting b .lineWithdraw s)
    | .aborting => accept [] s
    | _ => refuse .wrongState s

def execWithdraw (p : PortId) (n : Nat) (s : State) : Host.Outcome State Fault Refusal :=
  .next (serve p (.withdraw p n) (onBay n runWithdraw) s)

def runRelease (b : BayId) (s : State) : Reply :=
  let r := s.record b
  if r.state ≠ .finished then refuse .wrongState s
  else if r.reportStatus ≠ .committed then refuse .reportPending s
  else
    let s := setBayState b .unloading s
    accept [] (if r.inputs.pres then s else enterEmpty b s)

def execRelease (p : PortId) (n : Nat) (s : State) : Host.Outcome State Fault Refusal :=
  .next (serve p (.release p n) (onBay n runRelease) s)

def runAbort (b : BayId) (s : State) : Reply :=
  match (s.record b).state with
  | .running | .held | .closing => accept [] (enterAborting b .cellAbort s)
  | .aborting => accept [] s
  | _ => refuse .wrongState s

def execAbort (p : PortId) (n : Nat) (s : State) : Host.Outcome State Fault Refusal :=
  .next (serve p (.abort p n) (onBay n runAbort) s)

/-! ## SET LINES and CLEAR LINES (R9, R23, R24) -/

/-- The lines a mask names take value `v`; FILL is never among them (R24). -/
def writeLines (mask : BitVec 8) (v : Bool) (l : ActuatorLines) : ActuatorLines :=
  { l with
    clamp := if mask.getLsbD 0 then v else l.clamp
    couple := if mask.getLsbD 1 then v else l.couple
    sealHeads := if mask.getLsbD 2 then v else l.sealHeads
    vent := if mask.getLsbD 4 then v else l.vent }

/-- Whether a port's set and clear commands act on a bay with this owner (R9). -/
def mayWriteLines (p : PortId) (o : Owner) : Bool :=
  match p with
  | .cell => o = .cell
  | _ => o = .line

def runWriteLines (p : PortId) (mask : BitVec 8) (v : Bool) (b : BayId) (s : State) : Reply :=
  if mask.getLsbD 3 then refuse .lineReserved s
  else if mayWriteLines p (s.record b).owner = false then refuse .owned s
  else
    let t := mapRecord b (fun r => { r with lines := writeLines mask v r.lines }) s
    accept [linesByte (t.record b).lines] t

def execSetLines (p : PortId) (n : Nat) (mask : BitVec 8) (s : State) : Host.Outcome State Fault Refusal :=
  .next (serve p (.setLines p n mask) (onBay n (runWriteLines p mask true)) s)

def execClearLines (p : PortId) (n : Nat) (mask : BitVec 8) (s : State) : Host.Outcome State Fault Refusal :=
  .next (serve p (.clearLines p n mask) (onBay n (runWriteLines p mask false)) s)

/-! ## READ BAY (R8) -/

/-- A serial number is a length byte and its bytes; absent, a presence byte 0 and a length byte 0 (R170; log 13). -/
def serialBytes (o : Option (List Byte)) : List Byte :=
  bytesOfOption 1 (o.map fun bs => bytesOf 1 bs.length ++ bs)

/-- The bay record in the order of R8. -/
def recordBytes (r : BayRecord) : List Byte :=
  bytesOf 1 (bayStateCode r.state) ++ bytesOf 1 (ownerCode r.owner) ++ serialBytes r.serial ++ bytesOf 2 r.variantCode
    ++ bytesOfOption 1 (r.planNumber.map (bytesOf 1)) ++ bytesOfOption 2 (r.planVersion.map (bytesOf 2))
    ++ bytesOfOption 1 (r.slot.map (bytesOf 1)) ++ bytesOf 1 (phaseCode r.phase)
    ++ byteOfBool r.holdRequest ++ byteOfBool r.endRequest
    ++ bytesOf 1 (verdictCode r.verdict) ++ bytesOf 1 r.results.length ++ bytesOf 1 r.pendingReductions
    ++ byteOfBool r.audit ++ byteOfBool r.adjusted
    ++ bytesOf 1 (causeCodeOf r.cause) ++ bytesOf 1 (causeCodeOf r.secondary) ++ bytesOf 1 (reportStatusCode r.reportStatus)
    ++ [linesByte r.lines, inputsByte r.inputs]

def runReadBay (b : BayId) (s : State) : Reply := accept (recordBytes (s.record b)) s

def execReadBay (p : PortId) (n : Nat) (s : State) : Host.Outcome State Fault Refusal :=
  .next (serve p (.readBay p n) (onBay n runReadBay) s)

/-! ## HOLD and RESUME (R16, R17, R56) -/

def runHold (b : BayId) (s : State) : Reply :=
  match (s.record b).state with
  | .running =>
    if (s.record b).phase = .entryWait then accept [] (enterHeld b .before s)
    else accept [] (mapRecord b (fun r => { r with holdRequest := true }) s)
  | .held => accept [] s
  | .closing => refuse .noStepsLeft s
  | _ => refuse .wrongState s

def execHold (p : PortId) (n : Nat) (s : State) : Host.Outcome State Fault Refusal :=
  .next (serve p (.hold p n) (onBay n runHold) s)

/-- A held bay goes on from its hold point (R56): BEFORE re-enters the step in the current slot, AFTER follows its next link. -/
def resumeBay (b : BayId) (s : State) : State :=
  let r := s.record b
  let link := match r.holdPoint with
    | some .before => r.slot.getD Config.endLink
    | _ => nextLink b s
  boundary b link (setBayState b .running
    (mapRecord b (fun r => { r with holdStart := none, holdPoint := none, holdRequest := false }) s))

def runResume (b : BayId) (s : State) : Reply :=
  match (s.record b).state with
  | .held => accept [] (resumeBay b s)
  | .running => accept [] (mapRecord b (fun r => { r with holdRequest := false }) s)
  | _ => refuse .wrongState s

def execResume (p : PortId) (n : Nat) (s : State) : Host.Outcome State Fault Refusal :=
  .next (serve p (.resume p n) (onBay n runResume) s)

/-! ## Manual operation (R27, R28, R92, R93) -/

def runTakeManual (b : BayId) (s : State) : Reply :=
  let r := s.record b
  if r.state = .empty ∨ r.state = .loaded then
    match r.owner with
    | .line => accept [] (setOwner b .cell s)
    | .cell => accept [] s
    | .sequencer => refuse .wrongState s
  else refuse .wrongState s

def execTakeManual (p : PortId) (n : Nat) (s : State) : Host.Outcome State Fault Refusal :=
  .next (serve p (.takeManual p n) (onBay n runTakeManual) s)

def runReturnManual (b : BayId) (s : State) : Reply :=
  if (s.record b).owner ≠ .cell then refuse .wrongState s
  else if (s.bay b).drive.jogTarget = 0 ∧ (s.bay b).drive.atRest = true then
    accept [] (setOwner b .line (mapDrive b DriveLink.halt s))
  else refuse .driveMoving s

def execReturnManual (p : PortId) (n : Nat) (s : State) : Host.Outcome State Fault Refusal :=
  .next (serve p (.returnManual p n) (onBay n runReturnManual) s)

/-- A non-zero speed clamped into -300..300 and then into the bay's speed limit (R92). -/
def jogSpeed (limit : Nat) (speed : Int) : Int := clamp (-(limit : Int)) limit (clamp (-300) 300 speed)

/-- The jog target becomes the target at 200 rpm/s, and enable becomes true (R92). -/
def startJog (b : BayId) (v : Int) (s : State) : State :=
  mapDrive b (fun d => { d with jogTarget := v, target := v, rampRate := 200 }.manualEnable) s

def driveFaulted (d : DriveLink) : Bool := d.latest.elim false fun r => r.state = .fault

/-- JOG by owner, speed, guard and drive (R92); speed 0 answers the jog target that a jog stop leaves, 0 in two bytes, a payload that R92
gives for a non-zero speed only (log 35). -/
def runJog (speed : Int) (b : BayId) (s : State) : Reply :=
  let x := s.bay b
  if x.record.owner ≠ .cell then refuse .owned s
  else if speed = 0 then accept (bytesOfInt 2 0) (jogStop b s)
  else if x.record.inputs.grd = false then refuse .guardOpen s
  else if driveFaulted x.drive then refuse .wrongState s
  else
    let v := jogSpeed x.config.speedLimit speed
    accept (bytesOfInt 2 v) (startJog b v s)

def execJog (p : PortId) (n : Nat) (speed : Int) (s : State) : Host.Outcome State Fault Refusal :=
  .next (serve p (.jog p n speed) (onBay n (runJog speed)) s)

/-! ## READ LIVE (R107) -/

/-- The live values in the order of R107's table; the presence byte of the step slot is the step phase's too, which follows as its code
(log 13). -/
def liveBytes (x : Bay) : List Byte :=
  let d := x.drive
  let l := x.sensor
  bytesOf 1 (bayStateCode x.record.state) ++ bytesOf 1 (ownerCode x.record.owner)
    ++ bytesOfOption 1 (x.record.slot.map (bytesOf 1)) ++ bytesOf 1 (phaseCode x.record.phase)
    ++ byteOfBool d.enable ++ bytesOfInt 2 d.target ++ bytesOfInt 2 d.jogTarget ++ bytesOfInt 2 d.setpoint
    ++ bytesOfOption 5 (d.latest.map fun r => bytesOf 1 (driveStateCode r.state) ++ bytesOfInt 2 r.speed ++ bytesOfInt 2 r.torque)
    ++ bytesOfOption 2 (d.latest.map fun _ => bytesOf 2 d.reportAge) ++ bytesOf 1 d.missed
    ++ bytesOfOption 2 (l.pressure.getLast?.map fun p => bytesOfInt 2 p.word)
    ++ bytesOfOption 2 (l.pressure.getLast?.map fun _ => bytesOf 2 l.pressureSilence) ++ bytesOf 1 l.pressure.length
    ++ bytesOfOption 3 (l.pressureNow.map (bytesOfInt 3))
    ++ bytesOfOption 2 (l.temperature.getLast?.map fun t => bytesOfInt 2 t.word)
    ++ bytesOfOption 2 (l.temperature.getLast?.map fun _ => bytesOf 2 l.temperatureSilence) ++ bytesOf 1 l.temperature.length
    ++ bytesOfOption 2 (l.temperatureNow.map (bytesOfInt 2))
    ++ bytesOfOption 3 (l.vibration.map fun v => bytesOf 1 v.angle ++ bytesOfInt 2 v.value) ++ bytesOf 2 l.vibrationSilence
    ++ bytesOf 2 l.framingErrors

def runReadLive (b : BayId) (s : State) : Reply := accept (liveBytes (s.bay b)) s

def execReadLive (p : PortId) (n : Nat) (s : State) : Host.Outcome State Fault Refusal :=
  .next (serve p (.readLive p n) (onBay n runReadLive) s)

end Sys2Proof.Machine
end

