-- ==== Sys2Proof/Machine/CellCommands.lean ====
section
/-! DEFINITION. The commands of Cell Control: run, stop, settings, CLEAR TABLES and CONFIGURE BAY (R1 to R6). -/

namespace Sys2Proof.Machine

def cellStateBytes (s : State) : List Byte := bytesOf 1 (cellStateCode s.cell.state)

/-- CELL RUN enters RUNNING from STOPPED and STOPPING (R1). -/
def runCellRun (s : State) : Reply :=
  let t := if s.cell.state = .running then s else setCellState .running s
  accept (cellStateBytes t) t

def execCellRun (p : PortId) (s : State) : Host.Outcome State Fault Refusal := .next (serve p (.cellRun p) runCellRun s)

/-- CELL STOP in RUNNING enters STOPPED, or STOPPING while a bay is owned by the sequencer (R1). -/
def runCellStop (s : State) : Reply :=
  let t := if s.cell.state = .running then setCellState (if anySequenced s then .stopping else .stopped) s else s
  accept (cellStateBytes t) t

def execCellStop (p : PortId) (s : State) : Host.Outcome State Fault Refusal := .next (serve p (.cellStop p) runCellStop s)

/-- CLEAR TABLES in STOPPED (R5). -/
def runClearTables (s : State) : Reply :=
  if s.cell.state = .stopped then accept [] { s with store := s.store.cleared } else refuse .wrongState s

def execClearTables (p : PortId) (s : State) : Host.Outcome State Fault Refusal :=
  .next (serve p (.clearTables p) runClearTables s)

/-- SET CELL clamps and stores both settings (R4). -/
def runSetCell (stopRamp threshold : Nat) (s : State) : Reply :=
  let ramp := clampNat 100 2000 stopRamp
  let th := clampNat 1 16 threshold
  accept (bytesOf 2 ramp ++ bytesOf 1 th) { s with cell := { s.cell with stopRamp := ramp, backlogThreshold := th } }

def execSetCell (p : PortId) (stopRamp threshold : Nat) (s : State) : Host.Outcome State Fault Refusal :=
  .next (serve p (.setCell p stopRamp threshold) (runSetCell stopRamp threshold) s)

/-- The stored configuration as the response of CONFIGURE BAY carries it (R6, R171). -/
def configBytes (c : BayConfig) : List Byte :=
  bytesOf 2 c.speedLimit ++ bytesOf 1 c.wordWidth ++ bytesOf 1 c.angleOffset ++ [mapByte c.map]

/-- Each numeric field clamped into its range (R6). -/
def clampedConfig (speedLimit wordWidth angleOffset : Nat) (m : FunctionMap) : BayConfig :=
  ⟨clampNat 100 3000 speedLimit, clampNat 12 16 wordWidth, clampNat 0 63 angleOffset, m⟩

/-- CONFIGURE BAY in EMPTY with owner LINE (R6). -/
def runConfigureBay (c : BayConfig) (b : BayId) (s : State) : Reply :=
  if (s.record b).state = .empty ∧ (s.record b).owner = .line then
    accept (configBytes c) (mapBay b (fun x => { x with config := c }) s)
  else refuse .wrongState s

def execConfigureBay (p : PortId) (n speedLimit wordWidth angleOffset : Nat) (m : FunctionMap) (s : State) :
    Host.Outcome State Fault Refusal :=
  .next (serve p (.configureBay p n speedLimit wordWidth angleOffset m)
    (onBay n (runConfigureBay (clampedConfig speedLimit wordWidth angleOffset m))) s)

end Sys2Proof.Machine
end

