-- ==== Sys2Proof/Machine/DriveEvents.lean ====
section
/-! DEFINITION. Reset, the millisecond tick, drive reports, and the limits and durations that run on the drive side
(R3, R7, R18, R69 to R91). An expiry that is not due changes nothing (log 2). -/

namespace Sys2Proof.Machine

/-! ## POWER_ON_RESET -/

/-- Each input value is taken from the input as it stands (R22). -/
def keepInputs (s : State) (b : BayId) (t : State) : State :=
  mapRecord b (fun r => { r with inputs := (s.record b).inputs }) t

/-- Every block at its power-on value; the input levels stay as they are and so does the queue of commands (R7, R22; log 25). -/
def powerOn (s : State) : State :=
  allBays.foldl (fun t b => keepInputs s b t) { State.reset with pending := s.pending }

def execPowerOnReset (s : State) : Host.Outcome State Fault Refusal := .next (powerOn s)

/-! ## MILLISECOND_TICK -/

/-- With owner CELL, enable follows the jog target and x (R75). -/
def examineManual (b : BayId) (s : State) : State :=
  if (s.record b).owner = .cell then mapDrive b DriveLink.manualEnable s else s

/-- One millisecond of a Drive Link: the generator step with what it tells, then the message (R73, R74, R76, R79). -/
def driveTick (b : BayId) (s : State) : State :=
  mapDrive b DriveLink.generatorStep s
    |> examineRamp b
    |> examineEnding b
    |> examineManual b
    |> mapDrive b (fun d => d.settleMessage.sendMessage.ageReport)

/-- The order in which the bays act: the bays of `order` first, then the others in the order of their numbers (log 3). -/
def tickOrder (order : List BayId) : List BayId := (order ++ allBays).eraseDups

/-- The quiet timer of a port is lowered by one while it is above 0, and the notice line follows in the same event (R177, R178). -/
def Port.tick (p : Port) : Port := { p with quietTimer := p.quietTimer - 1 }.refreshNtf

/-- Silence counts and loss timers of every link (R100, R105). -/
def sensorTick (s : State) : State := allBays.foldl (fun t b => mapSensor b SensorLink.tick t) s

/-- Quiet timers and notice lines of the three ports (R177, R178). -/
def portTick (s : State) : State :=
  { s with ports := ⟨s.ports.line.tick, s.ports.cell.tick, s.ports.archive.tick⟩ }

/-- Cell time advances by one, modulo 2^32 (R3). -/
def advanceTime (s : State) : State := { s with cell := { s.cell with time := s.cell.time + 1 } }

/-- One millisecond of the reference: cell time, then every Drive Link, then the counts and timers (R3, R73, R79, R100, R105, R177,
R178). -/
def tick (order : List BayId) (s : State) : State :=
  portTick (sensorTick ((tickOrder order).foldl (fun t b => driveTick b t) (advanceTime s)))

def execMillisecondTick (order : List BayId) (s : State) : Host.Outcome State Fault Refusal := .next (tick order s)

/-! ## DRIVE_REPORT and DRIVE_LOST -/

/-- A DRIVE_LOST or DRIVE_FAULT event as the owner takes it (R78). -/
def driveEvent (b : BayId) (cause : Cause) (s : State) : State :=
  match (s.record b).owner with
  | .sequencer => takeFault b cause s
  | .cell => raise (.fault b) (jogStop b s)
  | .line => s

/-- The fault check of a taken report: FAULT with the mark clear sets it and gives DRIVE_FAULT; another state clears it (R77). -/
def faultCheck (b : BayId) (st : DriveState) (s : State) : State :=
  if st = .fault then
    if (s.bay b).drive.faultSeen then s
    else driveEvent b .driveFault (mapDrive b (fun d => { d with faultSeen := true }) s)
  else mapDrive b (fun d => { d with faultSeen := false }) s

/-- Whether an arriving report with a good or bad check is taken: it must echo the message that still waits for its answer (R74;
log 5). -/
def DriveLink.matchesReport (d : DriveLink) (checkGood : Bool) (echo : Byte) : Bool := checkGood && d.awaited == some echo

/-- A taken report in the order of R74: latest report, fault check, dwell accumulator, tracking check, wind-down. -/
def takeDriveReport (b : BayId) (rep : DriveReport) (s : State) : State :=
  mapDrive b (DriveLink.takeReport rep) s
    |> faultCheck b rep.state
    |> mapDrive b (DriveLink.accumulate rep)
    |> examineRamp b
    |> examineEnding b

def execDriveReport (b : BayId) (echo : Byte) (state : DriveState) (speed torque check : BitVec 16) (s : State) :
    Host.Outcome State Fault Refusal :=
  .next (if (s.bay b).drive.matchesReport (check == reportCheck echo state speed torque) echo then
    takeDriveReport b ⟨state, speed.toInt, torque.toInt⟩ s
  else s)

/-- A run of silence has reached 20 missed messages and has not yet given its DRIVE_LOST (R76). -/
def DriveLink.lostDue (d : DriveLink) : Bool := d.enable && d.missed == 20 && !d.lostGiven

def execDriveLost (b : BayId) (s : State) : Host.Outcome State Fault Refusal :=
  .next (if (s.bay b).drive.lostDue then
    driveEvent b .driveLost (mapDrive b (fun d => { d with lostGiven := true }) s)
  else s)

/-! ## RAMP_TIMEOUT and DWELL_END -/

/-- The timeout of the RAMP step in progress has been reached (R83). -/
def rampTimeoutDue (s : State) (b : BayId) : Bool :=
  let r := s.record b
  match r.phase, r.latched with
  | .ramping, some (.ramp o) | .tracking, some (.ramp o) => reached s.now r.stepStart o.timeout.toNat
  | _, _ => false

def execRampTimeout (b : BayId) (s : State) : Host.Outcome State Fault Refusal :=
  .next (if rampTimeoutDue s b then takeFault b .driveTrack s else s)

/-- The operands of a DWELL step whose duration has run (R85, R88). -/
def dwellDue (s : State) (b : BayId) : Option DwellOps :=
  let r := s.record b
  match r.phase, r.latched with
  | .dwelling, some (.dwell o) => if reached s.now r.stepStart o.duration.toNat then some o else none
  | _, _ => none

/-- The temperature result of a DWELL (R87). -/
def riseResult (s : State) (b : BayId) (o : DwellOps) : Result :=
  let x := s.bay b
  match x.record.startTemperature, x.sensor.temperatureSince s.now (x.record.stepStart.getD s.now) with
  | some t0, some t1 => stepResult s b .dwell .temperature (band (t1 - t0) o.risePass o.riseFail) none (t1 - t0) t1 Notes.none
  | _, _ => stepResult s b .dwell .temperature .invalid (some .sensorShort) 0 0 Notes.none

/-- The torque result, then the temperature result, then the boundary (R88). -/
def finishDwell (b : BayId) (o : DwellOps) (s : State) : State :=
  let acc := (s.bay b).drive.dwell.getD ⟨0, 0, 0⟩
  let s := if o.torqueOn then postResult b (torqueResult s b o acc) s else s
  let s := if o.riseOn then postResult b (riseResult s b o) s else s
  endStep b (mapDrive b (fun d => { d with dwell := none }) s)

def execDwellEnd (b : BayId) (s : State) : Host.Outcome State Fault Refusal :=
  .next (match dwellDue s b with
    | some o => finishDwell b o s
    | none => s)

/-! ## WIND_DOWN_EXPIRY and HOLD_EXPIRED -/

/-- A wind-down in progress has run for 10,000 ms (R91). -/
def windDownDue (s : State) (b : BayId) : Bool :=
  match (s.bay b).drive.windDown with
  | .inProgress t => 10000 ≤ elapsed s.now t
  | _ => false

/-- The bay acts on the expiry as its state gives (R69, R70, R91). -/
def expireWindDown (b : BayId) (s : State) : State :=
  match (s.record b).state with
  | .closing => finishBay b .fault (mapRecord b (fun r => { r with cause := some .driveStuck }) (cancelReductions b s))
  | .aborting => finishBay b .fault (recordSecondary b .driveStuck s)
  | _ => s

def execWindDownExpiry (b : BayId) (s : State) : Host.Outcome State Fault Refusal :=
  .next (if windDownDue s b then expireWindDown b s else s)

/-- A bay in HELD has been held for 600,000 ms (R18). -/
def holdDue (s : State) (b : BayId) : Bool :=
  (s.record b).state = .held && reached s.now (s.record b).holdStart 600000

def execHoldExpired (b : BayId) (s : State) : Host.Outcome State Fault Refusal :=
  .next (if holdDue s b then takeFault b .holdExpired s else s)

end Sys2Proof.Machine
end

