-- ==== Sys2Proof/Machine/LineEvents.lean ====
section
/-! DEFINITION. Changes of the discrete inputs (R15, R22). -/

namespace Sys2Proof.Machine

def InputLines.get (i : InputLines) : InputLine → Bool
  | .pres => i.pres
  | .clmp => i.clmp
  | .cpld => i.cpld
  | .grd => i.grd

def InputLines.set (i : InputLines) (l : InputLine) (v : Bool) : InputLines :=
  match l with
  | .pres => { i with pres := v }
  | .clmp => { i with clmp := v }
  | .cpld => { i with cpld := v }
  | .grd => { i with grd := v }

/-- The fault that the fall of an input gives under the sequencer (R22). -/
def fallFault : InputLine → Cause
  | .pres => .axleLost
  | .clmp => .clampLost
  | .cpld => .clampLost
  | .grd => .guardOpen

/-- What the fall of an input does by the bay's state (R15, R22). -/
def inputFalls (b : BayId) (l : InputLine) (s : State) : State :=
  let r := s.record b
  match r.state with
  | .running | .held | .closing | .aborting => takeFault b (fallFault l) s
  | .unloading => if l = .pres then enterEmpty b s else s
  | _ => if l = .grd ∧ r.owner = .cell then jogStop b s else s

/-- A confirmed change of an input; a level that the input already has is no change (R22; log 26). -/
def changeInput (b : BayId) (l : InputLine) (v : Bool) (s : State) : State :=
  if (s.record b).inputs.get l = v then s
  else
    let s := mapRecord b (fun r => { r with inputs := r.inputs.set l v }) s
    let s := if l = .pres then raise (.presence b) s else s
    if v then s else inputFalls b l s

def execInputLineChange (b : BayId) (l : InputLine) (v : Bool) (s : State) : Host.Outcome State Fault Refusal :=
  .next (changeInput b l v s)

end Sys2Proof.Machine
end

