-- ==== Sys2Proof/Machine/PlanCommands.lean ====
section
/-! DEFINITION. The commands of the Plan Store: plans, steps, variants and cells (R30 to R45). -/

namespace Sys2Proof.Machine

/-- The Plan Store of a reply's state after a change. -/
def withStore (st : PlanStore) (s : State) : State := { s with store := st }

/-! ## OPEN PLAN (R34) -/

def runOpenPlan (n : Nat) (s : State) : Reply :=
  let e := s.store.entry n
  if e.state = .empty then accept [] (withStore (s.store.setEntry n { e with state := .loading }) s)
  else refuse .wrongState s

def execOpenPlan (p : PortId) (n : Nat) (s : State) : Host.Outcome State Fault Refusal :=
  .next (serve p (.openPlan p n) (onPlan n (runOpenPlan n)) s)

/-! ## WRITE STEP (R30, R31) -/

/-- Whether a reference's argument lies in its form's range (R30, The step record). -/
def refInRange : Ref → Bool
  | .immediate v => isParameter v
  | .variant i => i ≤ 15
  | .common i => i ≤ 63
  | .indirect i => i ≤ 63

/-- The checks of R30 on a record; a next link outside 0..255 fits no field (log 15). -/
def recordInRange (r : StepRecord) : Bool :=
  (r.skip ≠ .audit || r.auditCell.any isCountdown) && r.next ≤ 255 && r.refs.toList.all refInRange

/-- The record as stored: without AUDIT the audit cell is absent (R30). -/
def storedRecord (r : StepRecord) : StepRecord :=
  { r with auditCell := if r.skip = .audit then r.auditCell else none }

/-- A WRITE STEP that has passed R30 (R31). -/
def runWriteStep (n k : Nat) (r : StepRecord) (s : State) : Reply :=
  if 254 < k ∨ recordInRange r = false then refuse .badArgument s
  else if (s.store.entry n).state ≠ .loading then refuse .wrongState s
  else if (s.store.slotAt k).elim false (fun o => o.plan ≠ n) then refuse .slotTaken s
  else
    let st := s.store.setSlot k (some ⟨n, storedRecord r⟩)
    accept (bytesOf 1 k ++ bytesOf 1 st.freeCount) (withStore st s)

def execWriteStep (p : PortId) (n k : Nat) (r : StepRecord) (s : State) : Host.Outcome State Fault Refusal :=
  .next (serve p (.writeStep p n k r) (onPlan n (runWriteStep n k r)) s)

/-! ## PUBLISH PLAN (R35, R36) -/

/-- The detail code and slot of PLAN_INVALID (R35, R169). -/
def publishErrorBytes : PublishError → List Byte
  | .emptyPlan => bytesOf 1 1 ++ bytesOf 1 255
  | .foreignSlot k => bytesOf 1 2 ++ bytesOf 1 k
  | .cycle k => bytesOf 1 3 ++ bytesOf 1 k
  | .chainTooLong => bytesOf 1 4 ++ bytesOf 1 255
  | .tooManyResults => bytesOf 1 5 ++ bytesOf 1 255

def runPublishPlan (n head : Nat) (endOnFail : Bool) (s : State) : Reply :=
  if 255 < head then refuse .badArgument s
  else if (s.store.entry n).state ≠ .loading then refuse .wrongState s
  else match s.store.judgeChain n head with
    | .error e => ⟨.planInvalid, publishErrorBytes e, s⟩
    | .ok (visited, total) =>
      let st := s.store.publish n head endOnFail visited total
      accept (bytesOf 2 (st.entry n).version ++ bytesOf 1 visited.length ++ bytesOf 1 total
        ++ bytesOf 1 (s.store.ownedCount n - visited.length)) (withStore st s)

def execPublishPlan (p : PortId) (n head : Nat) (endOnFail : Bool) (s : State) : Host.Outcome State Fault Refusal :=
  .next (serve p (.publishPlan p n head endOnFail) (onPlan n (runPublishPlan n head endOnFail)) s)

/-! ## DISCARD PLAN and RETIRE PLAN (R37, R38) -/

def runDiscardPlan (n : Nat) (s : State) : Reply :=
  if (s.store.entry n).state = .loading then
    accept (bytesOf 1 (s.store.ownedCount n)) (withStore (s.store.emptyPlan n) s)
  else refuse .wrongState s

def execDiscardPlan (p : PortId) (n : Nat) (s : State) : Host.Outcome State Fault Refusal :=
  .next (serve p (.discardPlan p n) (onPlan n (runDiscardPlan n)) s)

/-- The response says which of EMPTY and RETIRING the entry entered (R38; log 14). -/
def runRetirePlan (n : Nat) (s : State) : Reply :=
  let e := s.store.entry n
  if e.state ≠ .ready then refuse .wrongState s
  else if s.store.named n then refuse .inUse s
  else if e.refCount = 0 then
    accept (bytesOf 1 (planStateCode .empty)) (raise (.planRetired n) (withStore (s.store.emptyPlan n) s))
  else
    accept (bytesOf 1 (planStateCode .retiring)) (withStore (s.store.setEntry n { e with state := .retiring }) s)

def execRetirePlan (p : PortId) (n : Nat) (s : State) : Host.Outcome State Fault Refusal :=
  .next (serve p (.retirePlan p n) (onPlan n (runRetirePlan n)) s)

/-! ## READ STEP and READ PLAN (R32, R40, R172) -/

def runReadStep (k : Nat) (s : State) : Reply :=
  if 254 < k then refuse .badArgument s
  else match s.store.slotAt k with
    | none => accept (bytesOf 1 0 ++ bytesOf 1 k) s
    | some o => accept (stepBytes o.plan k o.record) s

def execReadStep (p : PortId) (k : Nat) (s : State) : Host.Outcome State Fault Refusal :=
  .next (serve p (.readStep p k) (runReadStep k) s)

def runReadPlan (n : Nat) (s : State) : Reply :=
  let e := s.store.entry n
  accept (bytesOf 1 (planStateCode e.state) ++ bytesOfOption 1 (e.head.map (bytesOf 1)) ++ bytesOf 2 e.version
    ++ byteOfBool e.endOnFail ++ bytesOf 1 e.refCount ++ bytesOfOption 1 (e.stepCount.map (bytesOf 1))
    ++ bytesOfOption 1 (e.resultBound.map (bytesOf 1)) ++ bytesOf 1 (s.store.ownedCount n) ++ bytesOf 1 s.store.freeCount) s

def execReadPlan (p : PortId) (n : Nat) (s : State) : Host.Outcome State Fault Refusal :=
  .next (serve p (.readPlan p n) (onPlan n (runReadPlan n)) s)

/-! ## The variant table (R41, R43, R44) -/

/-- A variant code names an entry within 1..65534 (R41). -/
def isVariantCode (code : Nat) : Bool := 1 ≤ code && code ≤ 65534

def runWriteVariant (code plan : Nat) (cells : Vector Int Config.variantCellCount) (s : State) : Reply :=
  if isVariantCode code = false ∨ isPlanNumber plan = false ∨ cells.toList.all isParameter = false then refuse .badArgument s
  else if (s.store.entry plan).state ≠ .ready then refuse .planNotReady s
  else if (s.store.variant code).isNone ∧ Config.variantCapacity ≤ s.store.variants.length then refuse .tableFull s
  else accept [] (withStore { s.store with variants := insertVariant ⟨code, plan, cells⟩ s.store.variants } s)

def execWriteVariant (p : PortId) (code plan : Nat) (cells : Vector Int Config.variantCellCount) (s : State) :
    Host.Outcome State Fault Refusal :=
  .next (serve p (.writeVariant p code plan cells) (runWriteVariant code plan cells) s)

def runDeleteVariant (code : Nat) (s : State) : Reply :=
  if isVariantCode code = false then refuse .badArgument s
  else if (s.store.variant code).isNone then refuse .notFound s
  else accept [] (withStore { s.store with variants := s.store.variants.filter (·.code ≠ code) } s)

def execDeleteVariant (p : PortId) (code : Nat) (s : State) : Host.Outcome State Fault Refusal :=
  .next (serve p (.deleteVariant p code) (runDeleteVariant code) s)

/-- The entry count and the room of 24 codes, the codes first and zeros after them (R44, R170). -/
def variantListBytes (start : Nat) (vs : List VariantEntry) : List Byte :=
  let codes := ((vs.drop start).take 24).map (·.code)
  bytesOf 1 vs.length ++ (codes.map (bytesOf 2)).flatten ++ List.replicate (48 - 2 * codes.length) 0

def runReadVariant (code start : Nat) (s : State) : Reply :=
  if code = 0 then accept (variantListBytes start s.store.variants) s
  else if isVariantCode code = false then refuse .badArgument s
  else match s.store.variant code with
    | some v => accept (bytesOf 1 v.plan ++ (v.cells.toList.map (bytesOfInt 3)).flatten) s
    | none => refuse .notFound s

def execReadVariant (p : PortId) (code start : Nat) (s : State) : Host.Outcome State Fault Refusal :=
  .next (serve p (.readVariant p code start) (runReadVariant code start) s)

/-! ## The common page (R45) -/

def runWriteCell (i : Nat) (v : Int) (s : State) : Reply :=
  if 63 < i ∨ isParameter v = false then refuse .badArgument s
  else accept (bytesOfInt 3 (storedCell i v)) (withStore (s.store.setCommon i (storedCell i v)) s)

def execWriteCell (p : PortId) (i : Nat) (v : Int) (s : State) : Host.Outcome State Fault Refusal :=
  .next (serve p (.writeCell p i v) (runWriteCell i v) s)

def runReadCell (i : Nat) (s : State) : Reply :=
  if 63 < i then refuse .badArgument s else accept (bytesOfInt 3 (s.store.commonAt i)) s

def execReadCell (p : PortId) (i : Nat) (s : State) : Host.Outcome State Fault Refusal :=
  .next (serve p (.readCell p i) (runReadCell i) s)

end Sys2Proof.Machine
end

