-- ==== Sys2Proof/Machine/PortCommands.lean ====
section
/-! DEFINITION. The commands of the Port Interfaces themselves: NOP and the notice commands (R169, R175 to R178). -/

namespace Sys2Proof.Machine

/-- NOP changes nothing (R169). -/
def runNop (s : State) : Reply := accept [] s

def execNop (p : PortId) (s : State) : Host.Outcome State Fault Refusal := .next (serve p (.nop p) runNop s)

/-! ## NEXT NOTICE (R176) -/

/-- The detail of four bytes: the subject as it stands now (R176). -/
def noticeDetail (n : Notice) (s : State) : List Byte :=
  match n with
  | .fault b | .aborted b | .readyToRelease b | .presence b | .owner b | .bayState b =>
    let r := s.record b
    bytesOf 1 (bayStateCode r.state) ++ bytesOf 1 (ownerCode r.owner) ++ bytesOf 1 (reportStatusCode r.reportStatus) ++ [0]
  | .planRetired k =>
    let e := s.store.entry k
    bytesOf 1 (planStateCode e.state) ++ bytesOf 2 e.version ++ [0]
  | .cellState => bytesOf 1 (cellStateCode s.cell.state) ++ [0, 0, 0]
  | .backlog | .reportAvailable =>
    bytesOf 1 s.reports.queue.length ++ bytesOf 1 s.reports.waiting.length ++ byteOfBool s.reports.backlog ++ [0]

/-- The port after the removal of its first pair, which leaves `rest`: a set left empty restarts the quiet timer (R176, R177). -/
def Port.dropNotice (rest : List Notice) (p : Port) : Port :=
  { p with notices := rest, quietTimer := if rest.isEmpty then p.interval else p.quietTimer }.refreshNtf

/-- The answer to a NEXT NOTICE that finds the set empty: class 0, subject FF, more-pending 0, a zero detail (R176). -/
def noNotice : List Byte := [0, 255, 0, 0, 0, 0, 0]

def runNextNotice (p : PortId) (s : State) : Reply :=
  match (s.port p).notices with
  | [] => accept noNotice s
  | n :: rest =>
    accept (bytesOf 1 n.cls ++ bytesOf 1 n.subject ++ byteOfBool (!rest.isEmpty) ++ noticeDetail n s)
      (mapPort p (Port.dropNotice rest) s)

def execNextNotice (p : PortId) (s : State) : Host.Outcome State Fault Refusal :=
  .next (serve p (.nextNotice p) (runNextNotice p) s)

/-! ## SET NOTICE MASK and SET NOTICE INTERVAL (R175, R177) -/

/-- The mask is replaced and every pair it masks leaves the pending set; the quiet timer goes on (R175). -/
def Port.setMask (mask : BitVec 10) (p : Port) : Port :=
  { p with mask := mask, notices := p.notices.filter (unmasked mask) }.refreshNtf

/-- Bits 10..15 are disregarded, and the response carries the mask as stored (R175). -/
def runSetNoticeMask (p : PortId) (bits : BitVec 16) (s : State) : Reply :=
  let mask := bits.setWidth 10
  accept (bytesOf 2 mask.toNat) (mapPort p (Port.setMask mask) s)

def execSetNoticeMask (p : PortId) (bits : BitVec 16) (s : State) : Host.Outcome State Fault Refusal :=
  .next (serve p (.setNoticeMask p bits) (runSetNoticeMask p bits) s)

/-- The interval is clamped into 0..1000 and stored; a running timer goes on (R177). -/
def runSetNoticeInterval (p : PortId) (ms : Nat) (s : State) : Reply :=
  let i := clampNat 0 1000 ms
  accept (bytesOf 2 i) (mapPort p (fun x => { x with interval := i }) s)

def execSetNoticeInterval (p : PortId) (ms : Nat) (s : State) : Host.Outcome State Fault Refusal :=
  .next (serve p (.setNoticeInterval p ms) (runSetNoticeInterval p ms) s)

/-! ## QUIET_TIMER_EXPIRY (R177, R178) -/

/-- A port whose quiet timer has reached 0 asserts its notice line when pairs are pending, which the tick has done already; otherwise
nothing is due (log 2, log 20). -/
def Port.quietExpired (p : Port) : Port := if p.quietTimer = 0 then p.refreshNtf else p

def execQuietTimerExpiry (p : PortId) (s : State) : Host.Outcome State Fault Refusal := .next (mapPort p Port.quietExpired s)

end Sys2Proof.Machine
end

