-- ==== Sys2Proof/Machine/Frames.lean ====
section
/-! DEFINITION. Frames: the layout of requests and responses, and the way from the bytes of a request to its command
(R167, R168, R170 to R172). -/

namespace Sys2Proof.Machine

/-! ## Responses (09, Byte layouts) -/

/-- A response frame; PREVIOUS_CUT is the flag of the moment it is shifted out. -/
def responseFrame (r : Response) (previousCut : Bool) : List Byte :=
  withCheck (bytesOf 1 (statusCode r.status) ++ [r.tag, bitmap [r.notice, previousCut]] ++ bytesOf 1 r.payload.length ++ r.payload)

/-! ## Reading payload fields (R170 to R172) -/

/-- A payload cut into fields of the given widths; none when its length is not their sum. -/
def fields : List Nat → List Byte → Option (List (List Byte))
  | [], pl => if pl.isEmpty then some [] else none
  | w :: ws, pl => if pl.length < w then none else (fields ws (pl.drop w)).map (pl.take w :: ·)

def lineModeOf : Nat → Option LineMode
  | 1 => some .held
  | 2 => some .driven
  | _ => none

/-- The function map byte: bits 1..0 CLAMP, 3..2 COUPLE, 5..4 SEAL, 7..6 VENT; 00 and 11 have no meaning (R171). -/
def mapOf (n : Nat) : Option FunctionMap := do
  let clamp ← lineModeOf (n % 4)
  let couple ← lineModeOf (n / 4 % 4)
  let sealHeads ← lineModeOf (n / 16 % 4)
  let vent ← lineModeOf (n / 64 % 4)
  return ⟨clamp, couple, sealHeads, vent⟩

/-- A flag byte is 0 or 1 (R170). -/
def flagOf : Nat → Option Bool
  | 0 => some false
  | 1 => some true
  | _ => none

def kindOf : Nat → Option StepKind
  | 1 => some .ramp
  | 2 => some .dwell
  | 3 => some .listen
  | 4 => some .leak
  | _ => none

def skipOf : Nat → Option SkipTest
  | 1 => some .run
  | 2 => some .ifClean
  | 3 => some .unlessClean
  | 4 => some .ifLastPass
  | 5 => some .audit
  | _ => none

/-- A reference of four bytes: form, then the signed value or the unsigned index (R172). -/
def refOf (form : Nat) (value : List Byte) : Option Ref :=
  match form with
  | 1 => some (.immediate (intOf value))
  | 2 => some (.variant (natOf value))
  | 3 => some (.common (natOf value))
  | 4 => some (.indirect (natOf value))
  | _ => none

/-- The `i`-th of equal parts of `w` bytes. -/
def part (w i : Nat) (bs : List Byte) : List Byte := (bs.drop (w * i)).take w

/-- The `i`-th reference of a run of references of four bytes each. -/
def refAt (bs : List Byte) (i : Nat) : Option Ref := refOf (natOf (part 4 i bs |>.take 1)) (part 4 i bs |>.drop 1)

/-- The ten references of the step layout. -/
def refsOf (bs : List Byte) : Option (Vector Ref Config.refCount) :=
  if (List.range Config.refCount).all fun i => (refAt bs i).isSome then
    some (Vector.ofFn fun i => (refAt bs i.val).getD (.immediate 0))
  else none

/-- The step record of a WRITE STEP payload; with a skip test other than AUDIT the audit cell byte is disregarded (R172). -/
def recordOf (kind skip cell next : Nat) (refs : List Byte) : Option StepRecord := do
  let k ← kindOf kind
  let t ← skipOf skip
  let rs ← refsOf refs
  return ⟨k, t, if t = .audit then some cell else none, next, rs⟩

/-- The sixteen cells of a WRITE VARIANT payload. -/
def cellsOf (bs : List Byte) : Vector Int Config.variantCellCount := Vector.ofFn fun i => intOf (part 3 i.val bs)

/-- PRESENT: bay, serial length n within 1..20, n serial bytes, variant code (R171). -/
def parsePresent (p : PortId) (pl : List Byte) : Option Instr :=
  match pl with
  | bay :: n :: rest =>
    if 1 ≤ n.toNat ∧ n.toNat ≤ 20 ∧ rest.length = n.toNat + 2 then
      some (.present p bay.toNat (rest.take n.toNat) (natOf (rest.drop n.toNat)))
    else none
  | _ => none

def parseNone (i : Instr) (pl : List Byte) : Option Instr := if pl.isEmpty then some i else none

/-- A payload of one number of `w` bytes. -/
def parseOne (w : Nat) (f : Nat → Instr) (pl : List Byte) : Option Instr :=
  if pl.length = w then some (f (natOf pl)) else none

/-- A payload of two unsigned numbers. -/
def parseTwo (v w : Nat) (f : Nat → Nat → Instr) (pl : List Byte) : Option Instr :=
  match fields [v, w] pl with
  | some [a, b] => some (f (natOf a) (natOf b))
  | _ => none

/-- A payload of one byte and a signed number. -/
def parseSigned (w : Nat) (f : Nat → Int → Instr) (pl : List Byte) : Option Instr :=
  match fields [1, w] pl with
  | some [a, b] => some (f (natOf a) (intOf b))
  | _ => none

def parseConfigureBay (p : PortId) (pl : List Byte) : Option Instr :=
  match fields [1, 2, 1, 1, 1] pl with
  | some [bay, speed, width, angle, m] => (mapOf (natOf m)).map (.configureBay p (natOf bay) (natOf speed) (natOf width) (natOf angle))
  | _ => none

def parseWriteStep (p : PortId) (pl : List Byte) : Option Instr :=
  match fields [1, 1, 1, 1, 1, 1, 40] pl with
  | some [plan, slot, kind, skip, cell, next, refs] =>
    (recordOf (natOf kind) (natOf skip) (natOf cell) (natOf next) refs).map (.writeStep p (natOf plan) (natOf slot))
  | _ => none

def parsePublishPlan (p : PortId) (pl : List Byte) : Option Instr :=
  match fields [1, 1, 1] pl with
  | some [plan, head, flag] => (flagOf (natOf flag)).map (.publishPlan p (natOf plan) (natOf head))
  | _ => none

def parseWriteVariant (p : PortId) (pl : List Byte) : Option Instr :=
  match fields [2, 1, 48] pl with
  | some [code, plan, cells] => some (.writeVariant p (natOf code) (natOf plan) (cellsOf cells))
  | _ => none

/-- The command of a code and a payload received on a port; none when the length is not the command's or a coded value has no
meaning, which is refused with BAD_ARGUMENT (R168, R170). -/
def parseCommand (p : PortId) (code : Nat) (pl : List Byte) : Option Instr :=
  match code with
  | 0x00 => parseNone (.nop p) pl
  | 0x01 => parseNone (.nextNotice p) pl
  | 0x02 => parseOne 2 (fun n => .setNoticeMask p (BitVec.ofNat 16 n)) pl
  | 0x03 => parseOne 2 (.setNoticeInterval p) pl
  | 0x10 => parsePresent p pl
  | 0x11 => parseOne 1 (.handover p) pl
  | 0x12 => parseOne 1 (.withdraw p) pl
  | 0x13 => parseOne 1 (.release p) pl
  | 0x14 => parseTwo 1 1 (fun b m => .setLines p b (BitVec.ofNat 8 m)) pl
  | 0x15 => parseTwo 1 1 (fun b m => .clearLines p b (BitVec.ofNat 8 m)) pl
  | 0x16 => parseOne 1 (.readBay p) pl
  | 0x20 => parseNone (.cellRun p) pl
  | 0x21 => parseNone (.cellStop p) pl
  | 0x22 => parseNone (.clearTables p) pl
  | 0x23 => parseTwo 2 1 (.setCell p) pl
  | 0x24 => parseConfigureBay p pl
  | 0x30 => parseOne 1 (.openPlan p) pl
  | 0x31 => parseWriteStep p pl
  | 0x32 => parsePublishPlan p pl
  | 0x33 => parseOne 1 (.discardPlan p) pl
  | 0x34 => parseOne 1 (.retirePlan p) pl
  | 0x35 => parseOne 1 (.readStep p) pl
  | 0x36 => parseOne 1 (.readPlan p) pl
  | 0x38 => parseWriteVariant p pl
  | 0x39 => parseOne 2 (.deleteVariant p) pl
  | 0x3A => parseTwo 2 1 (.readVariant p) pl
  | 0x3B => parseSigned 3 (.writeCell p) pl
  | 0x3C => parseOne 1 (.readCell p) pl
  | 0x40 => parseOne 1 (.hold p) pl
  | 0x41 => parseOne 1 (.resume p) pl
  | 0x42 => parseOne 1 (.abort p) pl
  | 0x43 => parseOne 1 (.takeManual p) pl
  | 0x44 => parseOne 1 (.returnManual p) pl
  | 0x45 => parseSigned 2 (.jog p) pl
  | 0x46 => parseOne 1 (.readLive p) pl
  | 0x50 => parseTwo 2 1 (.peekReport p) pl
  | 0x51 => parseOne 4 (.takeReport p) pl
  | 0x52 => parseNone (.queueStatus p) pl
  | _ => none

/-! ## Taking a request (R167, R168) -/

/-- What becomes of the bytes of a transfer: a refused answer with its status, tag and payload, or a command with its tag. -/
inductive Taken where
  | answer (status : Status) (tag : Byte) (payload : List Byte)
  | command (tag : Byte) (cmd : Instr)
  deriving DecidableEq, Repr

/-- Dispatch of a frame that has passed R167 (R168). -/
def dispatch (p : PortId) (code tag : Byte) (pl : List Byte) : Taken :=
  match portsOf code.toNat with
  | none => .answer .unknownCommand tag []
  | some ps =>
    if p ∉ ps then .answer .wrongPort tag []
    else match parseCommand p code.toNat pl with
      | none => .answer .badArgument tag []
      | some cmd => .command tag cmd

/-- BAD_FRAME with its reason byte, tag 0 (R167). -/
def badFrame (reason : Nat) : Taken := .answer .badFrame 0 (bytesOf 1 reason)

/-- The examination of the bytes received, in the order of R167. The request is the first 5 + L bytes; what follows is disregarded. -/
def takeFrame (p : PortId) (bytes : List Byte) (extraBits : Nat) : Taken :=
  if extraBits ≠ 0 then badFrame 1
  else match bytes with
    | code :: tag :: len :: rest =>
      let L := len.toNat
      if 56 < L ∨ rest.length < L + 2 then badFrame 2
      else
        let covered := code :: tag :: len :: rest.take L
        if (rest.drop L).take 2 = bytesOf 2 (crc covered).toNat then dispatch p code tag (rest.take L)
        else badFrame 3
    | _ => badFrame 2

/-! ## Writing a request: the other direction, for statements -/

/-- The payload of a command in the layout of the catalogue. -/
def requestPayload : Instr → List Byte
  | .setNoticeMask _ m => bytesOf 2 m.toNat
  | .setNoticeInterval _ ms => bytesOf 2 ms
  | .present _ b serial code => bytesOf 1 b ++ bytesOf 1 serial.length ++ serial ++ bytesOf 2 code
  | .handover _ b | .withdraw _ b | .release _ b | .readBay _ b | .hold _ b | .resume _ b | .abort _ b | .takeManual _ b
  | .returnManual _ b | .readLive _ b => bytesOf 1 b
  | .setLines _ b m | .clearLines _ b m => bytesOf 1 b ++ [m]
  | .setCell _ ramp th => bytesOf 2 ramp ++ bytesOf 1 th
  | .configureBay _ b speed width angle m => bytesOf 1 b ++ bytesOf 2 speed ++ bytesOf 1 width ++ bytesOf 1 angle ++ [mapByte m]
  | .openPlan _ n | .discardPlan _ n | .retirePlan _ n | .readPlan _ n => bytesOf 1 n
  | .writeStep _ n k r => stepBytes n k r
  | .publishPlan _ n head flag => bytesOf 1 n ++ bytesOf 1 head ++ byteOfBool flag
  | .readStep _ k => bytesOf 1 k
  | .writeVariant _ code n cells => bytesOf 2 code ++ bytesOf 1 n ++ (cells.toList.map (bytesOfInt 3)).flatten
  | .deleteVariant _ code => bytesOf 2 code
  | .readVariant _ code start => bytesOf 2 code ++ bytesOf 1 start
  | .writeCell _ i v => bytesOf 1 i ++ bytesOfInt 3 v
  | .readCell _ i => bytesOf 1 i
  | .jog _ b v => bytesOf 1 b ++ bytesOfInt 2 v
  | .peekReport _ offset length => bytesOf 2 offset ++ bytesOf 1 length
  | .takeReport _ n => bytesOf 4 n
  | _ => []

/-- The request frame of a command with a tag (09, Byte layouts). -/
def requestFrame (tag : Byte) (cmd : Instr) : List Byte :=
  let pl := requestPayload cmd
  withCheck (bytesOf 1 ((codeOf cmd).getD 0) ++ [tag] ++ bytesOf 1 pl.length ++ pl)

end Sys2Proof.Machine
end

