-- ==== Sys2Proof/Machine/QueueCommands.lean ====
section
/-! DEFINITION. The commands of the Report Queue (R159 to R161). -/

namespace Sys2Proof.Machine

/-- The bytes a PEEK reads: the length is clamped into 0..48 and then to the bytes that remain (R159). -/
def peekBytes (bytes : List Byte) (offset length : Nat) : List Byte := (bytes.drop offset).take (clampNat 0 48 length)

/-- PEEK REPORT reads the head report and removes nothing (R159). -/
def runPeekReport (offset length : Nat) (s : State) : Reply :=
  match s.reports.queue with
  | [] => refuse .queueEmpty s
  | rep :: _ =>
    let bytes := reportBytes rep
    if bytes.length ≤ offset then refuse .badArgument s
    else accept (bytesOf 4 (rep.sequence.getD 0) ++ bytesOf 2 bytes.length ++ bytesOf 2 offset
      ++ peekBytes bytes offset length) s

def execPeekReport (p : PortId) (offset length : Nat) (s : State) : Host.Outcome State Fault Refusal :=
  .next (serve p (.peekReport p offset length) (runPeekReport offset length) s)

/-- The bay and sequence number of the report that a TAKE commits from the waiting list, when there is one (R160; log 13). -/
def committedByTake (q : ReportQueue) : Option (List Byte) :=
  q.waiting.head?.map fun w => bytesOf 1 (bayCode w.bay) ++ bytesOf 4 q.nextSequence

def runTakeReport (sequence : Nat) (s : State) : Reply :=
  match s.reports.queue with
  | [] => refuse .queueEmpty s
  | rep :: _ =>
    if rep.sequence = some sequence then
      let t := takeHead s
      accept (bytesOf 4 sequence ++ bytesOf 1 t.reports.queue.length ++ bytesOfOption 5 (committedByTake s.reports)) t
    else refuse .notFound s

def execTakeReport (p : PortId) (sequence : Nat) (s : State) : Host.Outcome State Fault Refusal :=
  .next (serve p (.takeReport p sequence) (runTakeReport sequence) s)

/-- The payload of QUEUE STATUS (R161); the bays of the waiting list take the room of four. -/
def queueStatusBytes (q : ReportQueue) : List Byte :=
  bytesOf 1 q.queue.length
    ++ bytesOfOption 4 (q.queue.head?.map fun r => bytesOf 4 (r.sequence.getD 0))
    ++ bytesOf 1 q.waiting.length
    ++ (q.waiting.map fun w => BitVec.ofNat 8 (bayCode w.bay)) ++ List.replicate (4 - q.waiting.length) 0
    ++ bytesOf 4 q.nextSequence ++ byteOfBool q.backlog

def runQueueStatus (s : State) : Reply := accept (queueStatusBytes s.reports) s

def execQueueStatus (p : PortId) (s : State) : Host.Outcome State Fault Refusal :=
  .next (serve p (.queueStatus p) runQueueStatus s)

end Sys2Proof.Machine
end

