-- ==== Sys2Proof/Machine/PortEvents.lean ====
section
/-! DEFINITION. The exchange at a port: SEL falls, SEL rises, and the response is ready (R164, R166 to R168). -/

namespace Sys2Proof.Machine

/-! ## TRANSFER_START: SEL falls (R166) -/

/-- What a port shifts out that has no response pending: an IDLE or a NOT_READY response, with tag 0 and an empty payload and the NOTICE
flag as the pending set stands (R166; log 12 for IDLE). -/
def Port.bareResponse (st : Status) (p : Port) : Response := ⟨st, 0, !p.notices.isEmpty, []⟩

/-- The transfer that begins in EXECUTING keeps the response in preparation and the cut mark. -/
def Port.startNotReady (p : Port) : Port :=
  { p with
    state := .inTransfer .notReady, received := [], receivedBits := 0,
    shiftedOut := responseFrame (p.bareResponse .notReady) false }

/-- The transfer that begins in QUIET with nothing pending. -/
def Port.startIdle (p : Port) : Port :=
  { p with
    state := .inTransfer .idle, received := [], receivedBits := 0, cutMark := false,
    shiftedOut := responseFrame (p.bareResponse .idle) p.cutMark }

/-- The transfer that begins in QUIET with response `r` pending, which is then absent. -/
def Port.startResponse (r : Response) (p : Port) : Port :=
  let frame := responseFrame r p.cutMark
  { p with
    state := .inTransfer (.response frame.length), received := [], receivedBits := 0, cutMark := false, response := none,
    shiftedOut := frame }

/-- SEL falls; within a transfer it is low already (log 27). -/
def Port.startTransfer (p : Port) : Port :=
  match p.state with
  | .executing => p.startNotReady
  | .quiet => match p.response with
    | some r => p.startResponse r
    | none => p.startIdle
  | .inTransfer _ => p

def execTransferStart (p : PortId) (s : State) : Host.Outcome State Fault Refusal := .next (mapPort p Port.startTransfer s)

/-! ## REQUEST_TAKEN: SEL rises (R166 to R168) -/

/-- The bytes of a NOT_READY transfer are discarded; the port goes back to the request before, or is QUIET when that was answered
while SEL was low (R166). -/
def Port.discardTransfer (p : Port) : Port :=
  { p with
    received := [], receivedBits := 0,
    state := if p.request.isSome || p.preparing.isSome then .executing else .quiet }

/-- The port takes what it received: a command waits for its execution, a refusal is the response in preparation (R167, R168). -/
def Port.take (taken : Taken) (bytes : List Byte) (extraBits : Nat) (p : Port) : Port :=
  let q := { p with state := .executing, received := bytes, receivedBits := extraBits }
  match taken with
  | .answer st tag pl => { q with request := none, preparing := some ⟨st, tag, !p.notices.isEmpty, pl⟩ }
  | .command tag cmd => { q with request := some (tag, cmd), preparing := none }

/-- A pending response that was not clocked out in full sets the cut mark (R166). -/
def wasCut (kind : TransferKind) (bytes : List Byte) (extraBits : Nat) : Bool :=
  match kind with
  | .response len => bytes.length * 8 + extraBits < len * 8
  | .notReady | .idle => false

/-- The bytes that a master takes from SDO while it clocks `n` bytes: the response's, then 00 for each extra one (R166). -/
def Port.clockOut (n : Nat) (p : Port) : List Byte := (List.range n).map fun i => p.shiftedOut.getD i 0

/-- SEL rises at port `id`. Out of a transfer nothing happens: SEL is high already, or a power-on reset has ended the transfer while SEL
was low (log 27). -/
def Port.endTransfer (id : PortId) (bytes : List Byte) (extraBits : Nat) (p : Port) : Port :=
  match p.state with
  | .inTransfer .notReady => { p with readOut := p.clockOut bytes.length }.discardTransfer
  | .inTransfer kind =>
    { p with readOut := p.clockOut bytes.length, cutMark := p.cutMark || wasCut kind bytes extraBits }.take
      (takeFrame id bytes extraBits) bytes extraBits
  | .quiet | .executing => p

def execRequestTaken (p : PortId) (bytes : List Byte) (extraBits : Nat) (s : State) : Host.Outcome State Fault Refusal :=
  .next (mapPort p (Port.endTransfer p bytes extraBits) s)

/-! ## RESPONSE_READY (R164, R166, R168) -/

/-- The state after an outcome; no meaning ends in anything but a next state. -/
def after (s : State) : Host.Outcome State Fault Refusal → State
  | .next t => t
  | .fault _ => s
  | .refused _ => s

/-- The execution of a dispatched command at its owning block (R168); an event is never dispatched. -/
def runCommand (cmd : Instr) (s : State) : State :=
  match cmd with
  | .nop p => after s (execNop p s)
  | .nextNotice p => after s (execNextNotice p s)
  | .setNoticeMask p mask => after s (execSetNoticeMask p mask s)
  | .setNoticeInterval p ms => after s (execSetNoticeInterval p ms s)
  | .present p bay serial code => after s (execPresent p bay serial code s)
  | .handover p bay => after s (execHandover p bay s)
  | .withdraw p bay => after s (execWithdraw p bay s)
  | .release p bay => after s (execRelease p bay s)
  | .setLines p bay mask => after s (execSetLines p bay mask s)
  | .clearLines p bay mask => after s (execClearLines p bay mask s)
  | .readBay p bay => after s (execReadBay p bay s)
  | .cellRun p => after s (execCellRun p s)
  | .cellStop p => after s (execCellStop p s)
  | .clearTables p => after s (execClearTables p s)
  | .setCell p ramp threshold => after s (execSetCell p ramp threshold s)
  | .configureBay p bay speed width angle m => after s (execConfigureBay p bay speed width angle m s)
  | .openPlan p n => after s (execOpenPlan p n s)
  | .writeStep p n k r => after s (execWriteStep p n k r s)
  | .publishPlan p n head flag => after s (execPublishPlan p n head flag s)
  | .discardPlan p n => after s (execDiscardPlan p n s)
  | .retirePlan p n => after s (execRetirePlan p n s)
  | .readStep p k => after s (execReadStep p k s)
  | .readPlan p n => after s (execReadPlan p n s)
  | .writeVariant p code n cells => after s (execWriteVariant p code n cells s)
  | .deleteVariant p code => after s (execDeleteVariant p code s)
  | .readVariant p code start => after s (execReadVariant p code start s)
  | .writeCell p i v => after s (execWriteCell p i v s)
  | .readCell p i => after s (execReadCell p i s)
  | .hold p bay => after s (execHold p bay s)
  | .resume p bay => after s (execResume p bay s)
  | .abort p bay => after s (execAbort p bay s)
  | .takeManual p bay => after s (execTakeManual p bay s)
  | .returnManual p bay => after s (execReturnManual p bay s)
  | .jog p bay speed => after s (execJog p bay speed s)
  | .readLive p bay => after s (execReadLive p bay s)
  | .peekReport p offset length => after s (execPeekReport p offset length s)
  | .takeReport p sequence => after s (execTakeReport p sequence s)
  | .queueStatus p => after s (execQueueStatus p s)
  | .powerOnReset
  | .millisecondTick _
  | .driveReport _ _ _ _ _ _
  | .driveLost _
  | .rampTimeout _
  | .dwellEnd _
  | .windDownExpiry _
  | .holdExpired _
  | .pressureWord _ _
  | .temperatureWord _ _
  | .vibrationWord _ _
  | .foreignTagWord _ _
  | .wordBreak _
  | .silencePurge _ _
  | .pressureLoss _
  | .temperatureLoss _
  | .acquisitionTimeout _
  | .reductionComplete
  | .fillLimitExpiry _
  | .settleEnd _
  | .measureEnd _
  | .ventLimitExpiry _
  | .inputLineChange _ _ _
  | .quietTimerExpiry _
  | .transferStart _
  | .requestTaken _ _ _
  | .responseReady _ => s

/-- The command that a port has dispatched is executed before its response is ready, if its own row has not done so (R168; log 11). -/
def runRequest (p : PortId) (s : State) : State :=
  match (s.port p).request with
  | some (_, cmd) => runCommand cmd s
  | none => s

/-- The response in preparation is ready and becomes the pending response; a port in EXECUTING returns to QUIET (R164, R166). -/
def Port.finishResponse (p : Port) : Port :=
  match p.preparing with
  | none => p
  | some r =>
    let done := { p with preparing := none, response := some r }
    match p.state with
    | .executing | .quiet => { done with state := .quiet }
    | .inTransfer .notReady => done
    | .inTransfer _ => p

def execResponseReady (p : PortId) (s : State) : Host.Outcome State Fault Refusal :=
  .next (mapPort p Port.finishResponse (runRequest p s))

end Sys2Proof.Machine
end

