-- ==== Sys2Proof/Machine/SensorEvents.lean ====
section
/-! DEFINITION. Sample words, word faults, the silence purge and the sensor losses, with what a sample does to a LEAK or LISTEN
step (R95 to R106, R113 to R117, R137, R139, R147). -/

namespace Sys2Proof.Machine

/-! ## PRESSURE_WORD and TEMPERATURE_WORD -/

/-- The VENT phase ends: the unit returns to IDLE, SEAL falls and the bay reaches its boundary (R147). -/
def finishVent (b : BayId) (s : State) : State := endStep b (refreshLines b (mapLeak b LeakUnit.ended s))

/-- A pressure sample offered to the Leak Unit is used in AMBIENT, FILL and VENT (R96, R135). -/
def offerPressure (b : BayId) (p : Int) (s : State) : State :=
  match (s.bay b).leak.phase with
  | .ambient => askAmbient b s
  | .fill => fillSample b p s
  | .vent => if p ≤ s.ambient b + 500 then finishVent b s else s
  | _ => s

def execPressureWord (b : BayId) (payload : BitVec 22) (s : State) : Host.Outcome State Fault Refusal :=
  .next (offerPressure b (4 * (wordField payload).toNat) (mapSensor b (SensorLink.takePressure s.now (wordField payload)) s))

def execTemperatureWord (b : BayId) (payload : BitVec 22) (s : State) : Host.Outcome State Fault Refusal :=
  .next (mapSensor b (SensorLink.takeTemperature s.now (wordField payload)) s)

/-! ## VIBRATION_WORD -/

/-- An acquisition ends with its buffer FREE and one INVALID result whose values are the revolution and slip counts (R114, R116, R117). -/
def failAcquisition (b : BayId) (k : BufId) (cause : Cause) (s : State) : State :=
  let x := s.buf b k
  let s := mapNoise b (fun n => (n.set k (n.get k).freed).rowIdle) s
  endStep b (postResult b (stepResult s b .listen .noise .invalid (some cause) x.revolutions x.slips Notes.none) s)

/-- A full acquisition: QUEUED, or SATURATED (R116). -/
def finishAcquisition (b : BayId) (k : BufId) (s : State) : State :=
  if (s.buf b k).saturated then failAcquisition b k .saturated s
  else endStep b (enqueueBuffer b k (mapNoise b NoiseUnit.rowIdle s))

/-- The sample of lane 63 completes the row (R115), and the revolution count is examined (R116). -/
def completeRow (b : BayId) (k : BufId) (row : List Int) (s : State) : State :=
  let s := mapNoise b NoiseUnit.rowHunting (mapBuf b k (ListenBuffer.addRow row) s)
  let x := s.buf b k
  if 2 ^ (x.ops.getD ListenOps.zero).exponent.toNat ≤ x.revolutions then finishAcquisition b k s else s

/-- A sample at a lane other than the expected one (R114). -/
def slip (b : BayId) (k : BufId) (lane : Nat) (v : Int) (s : State) : State :=
  let s := mapNoise b NoiseUnit.rowHunting (mapBuf b k (fun x => { x with slips := x.slips + 1 }) s)
  let x := s.buf b k
  if (x.ops.getD ListenOps.zero).slipAllowance < x.slips then failAcquisition b k .sync s
  else if lane = 0 then mapNoise b (fun n => { n with row := .inRow 1, staging := [v] }) s
  else s

/-- A vibration sample offered to Noise Acquisition, by its row state (R113). -/
def offerVibration (b : BayId) (angle : Nat) (v : Int) (s : State) : State :=
  let x := s.bay b
  let lane := laneOf angle x.config.angleOffset
  match x.noise.row, x.noise.find .acquiring with
  | .hunting, some _ => if lane = 0 then mapNoise b (fun n => { n with row := .inRow 1, staging := [v] }) s else s
  | .inRow e, some k =>
    if lane ≠ e then slip b k lane v s
    else if e = 63 then completeRow b k (x.noise.staging ++ [v]) s
    else mapNoise b (fun n => { n with row := .inRow (e + 1), staging := n.staging ++ [v] }) s
  | _, _ => s

def execVibrationWord (b : BayId) (payload : BitVec 22) (s : State) : Host.Outcome State Fault Refusal :=
  let v := justify (s.bay b).config.wordWidth (wordField payload)
  .next (offerVibration b (angleField payload) v (mapSensor b (SensorLink.stageVibration s.now (angleField payload) v) s))

/-! ## FOREIGN_TAG_WORD and WORD_BREAK -/

/-- The payload of a word with tag 00 is nothing that the part reads (R95). -/
def execForeignTagWord (b : BayId) (s : State) : Host.Outcome State Fault Refusal :=
  .next (mapSensor b SensorLink.framingError s)

def execWordBreak (b : BayId) (s : State) : Host.Outcome State Fault Refusal :=
  .next (mapSensor b SensorLink.framingError s)

/-! ## SILENCE_PURGE, PRESSURE_LOSS and TEMPERATURE_LOSS -/

def execSilencePurge (b : BayId) (ch : SlowChannel) (s : State) : Host.Outcome State Fault Refusal :=
  .next (mapSensor b (SensorLink.purge ch) s)

/-- A channel is lost: with the mark clear it is set and SENSOR_LOST is given (R105, R106). -/
def loseChannel (b : BayId) (w : LossWatch) (s : State) : State :=
  if w.mark then s
  else takeFault b .sensorLost (mapSensor b (fun l => { l with lossWatch := some { w with mark := true } }) s)

def execPressureLoss (b : BayId) (s : State) : Host.Outcome State Fault Refusal :=
  .next (match (s.bay b).sensor.lossWatch with
    | some w => if w.pressureTimer = pressureLossLimit then loseChannel b w s else s
    | none => s)

def execTemperatureLoss (b : BayId) (s : State) : Host.Outcome State Fault Refusal :=
  .next (match (s.bay b).sensor.lossWatch with
    | some w => if w.temperatureTimer = temperatureLossLimit then loseChannel b w s else s
    | none => s)

/-! ## ACQUISITION_TIMEOUT -/

/-- The buffer whose acquisition timeout has been reached (R117). -/
def acquisitionDue (s : State) (b : BayId) : Option BufId :=
  match (s.bay b).noise.find .acquiring with
  | none => none
  | some k =>
    let x := s.buf b k
    if reached s.now x.acquisitionStart (x.ops.getD ListenOps.zero).timeout.toNat then some k else none

def execAcquisitionTimeout (b : BayId) (s : State) : Host.Outcome State Fault Refusal :=
  .next (match acquisitionDue s b with
    | some k => failAcquisition b k .timeout s
    | none => s)

/-! ## REDUCTION_COMPLETE -/

/-- The completion of the reduction in the engine: the posting unless it is discarded, the count lowered and the buffer FREE, what
waits goes on, and the engine, IDLE, takes its next entry (R122, R124). -/
def completeReduction (j : EngineJob) (s : State) : State :=
  let x := s.buf j.bay j.buf
  let s := if x.discard then s else postResult j.bay (noiseResult x s.now) s
  engineTake (wakeBay j.bay (freeReduced j s))

/-- The reduction that has run for 2 ms (R121). -/
def reductionDue (s : State) : Option EngineJob :=
  match s.reducer.engine with
  | some j => if 2 ≤ elapsed s.now j.start then some j else none
  | none => none

def execReductionComplete (s : State) : Host.Outcome State Fault Refusal :=
  .next (match reductionDue s with
    | some j => completeReduction j s
    | none => s)

/-! ## The limits of a LEAK step -/

/-- The Leak Unit is in a phase that has run for a limit (R140, R141, R143, R148). -/
def leakDue (s : State) (b : BayId) (ph : LeakPhase) (limit : Nat) : Bool :=
  (s.bay b).leak.phase = ph && reached s.now (s.bay b).leak.phaseStart limit

def execFillLimitExpiry (b : BayId) (s : State) : Host.Outcome State Fault Refusal :=
  .next (if leakDue s b .fill (s.leakOps b).fillLimit.toNat then failFill b s else s)

def execSettleEnd (b : BayId) (s : State) : Host.Outcome State Fault Refusal :=
  .next (if leakDue s b .settle (s.leakOps b).settleTime.toNat then enterMeasure b s else s)

def execMeasureEnd (b : BayId) (s : State) : Host.Outcome State Fault Refusal :=
  .next (if leakDue s b .measure ((s.leakOps b).measureTime.toNat * 1000) then
    match (s.bay b).leak.startMeans with
    | some (p1, t1) => endMeasure b p1 t1 s
    | none => s
  else s)

def execVentLimitExpiry (b : BayId) (s : State) : Host.Outcome State Fault Refusal :=
  .next (if leakDue s b .vent 10000 then takeFault b .ventBlocked s else s)

end Sys2Proof.Machine
end

