-- ==== Sys2Proof/Machine/Dispatch.lean ====
section
/-! DEFINITION. The dispatch of every command and event to its meaning. -/

namespace Sys2Proof.Machine

def exec (i : Instr) (s : State) : Host.Outcome State Fault Refusal :=
  match i with
  | .powerOnReset => Sys2Proof.Machine.execPowerOnReset s
  | .millisecondTick order => Sys2Proof.Machine.execMillisecondTick order s
  | .driveReport bay echo st speed torque check => Sys2Proof.Machine.execDriveReport bay echo st speed torque check s
  | .driveLost bay => Sys2Proof.Machine.execDriveLost bay s
  | .rampTimeout bay => Sys2Proof.Machine.execRampTimeout bay s
  | .dwellEnd bay => Sys2Proof.Machine.execDwellEnd bay s
  | .windDownExpiry bay => Sys2Proof.Machine.execWindDownExpiry bay s
  | .holdExpired bay => Sys2Proof.Machine.execHoldExpired bay s
  | .pressureWord bay payload => Sys2Proof.Machine.execPressureWord bay payload s
  | .temperatureWord bay payload => Sys2Proof.Machine.execTemperatureWord bay payload s
  | .vibrationWord bay payload => Sys2Proof.Machine.execVibrationWord bay payload s
  | .foreignTagWord bay _ => Sys2Proof.Machine.execForeignTagWord bay s
  | .wordBreak bay => Sys2Proof.Machine.execWordBreak bay s
  | .silencePurge bay channel => Sys2Proof.Machine.execSilencePurge bay channel s
  | .pressureLoss bay => Sys2Proof.Machine.execPressureLoss bay s
  | .temperatureLoss bay => Sys2Proof.Machine.execTemperatureLoss bay s
  | .acquisitionTimeout bay => Sys2Proof.Machine.execAcquisitionTimeout bay s
  | .reductionComplete => Sys2Proof.Machine.execReductionComplete s
  | .fillLimitExpiry bay => Sys2Proof.Machine.execFillLimitExpiry bay s
  | .settleEnd bay => Sys2Proof.Machine.execSettleEnd bay s
  | .measureEnd bay => Sys2Proof.Machine.execMeasureEnd bay s
  | .ventLimitExpiry bay => Sys2Proof.Machine.execVentLimitExpiry bay s
  | .inputLineChange bay line level => Sys2Proof.Machine.execInputLineChange bay line level s
  | .quietTimerExpiry p => Sys2Proof.Machine.execQuietTimerExpiry p s
  | .transferStart p => Sys2Proof.Machine.execTransferStart p s
  | .requestTaken p bytes extra => Sys2Proof.Machine.execRequestTaken p bytes extra s
  | .responseReady p => Sys2Proof.Machine.execResponseReady p s
  | .nop p => Sys2Proof.Machine.execNop p s
  | .nextNotice p => Sys2Proof.Machine.execNextNotice p s
  | .setNoticeMask p mask => Sys2Proof.Machine.execSetNoticeMask p mask s
  | .setNoticeInterval p ms => Sys2Proof.Machine.execSetNoticeInterval p ms s
  | .present p bay serial code => Sys2Proof.Machine.execPresent p bay serial code s
  | .handover p bay => Sys2Proof.Machine.execHandover p bay s
  | .withdraw p bay => Sys2Proof.Machine.execWithdraw p bay s
  | .release p bay => Sys2Proof.Machine.execRelease p bay s
  | .setLines p bay mask => Sys2Proof.Machine.execSetLines p bay mask s
  | .clearLines p bay mask => Sys2Proof.Machine.execClearLines p bay mask s
  | .readBay p bay => Sys2Proof.Machine.execReadBay p bay s
  | .cellRun p => Sys2Proof.Machine.execCellRun p s
  | .cellStop p => Sys2Proof.Machine.execCellStop p s
  | .clearTables p => Sys2Proof.Machine.execClearTables p s
  | .setCell p ramp threshold => Sys2Proof.Machine.execSetCell p ramp threshold s
  | .configureBay p bay speed width angle m => Sys2Proof.Machine.execConfigureBay p bay speed width angle m s
  | .openPlan p n => Sys2Proof.Machine.execOpenPlan p n s
  | .writeStep p n k r => Sys2Proof.Machine.execWriteStep p n k r s
  | .publishPlan p n head flag => Sys2Proof.Machine.execPublishPlan p n head flag s
  | .discardPlan p n => Sys2Proof.Machine.execDiscardPlan p n s
  | .retirePlan p n => Sys2Proof.Machine.execRetirePlan p n s
  | .readStep p k => Sys2Proof.Machine.execReadStep p k s
  | .readPlan p n => Sys2Proof.Machine.execReadPlan p n s
  | .writeVariant p code n cells => Sys2Proof.Machine.execWriteVariant p code n cells s
  | .deleteVariant p code => Sys2Proof.Machine.execDeleteVariant p code s
  | .readVariant p code start => Sys2Proof.Machine.execReadVariant p code start s
  | .writeCell p cell value => Sys2Proof.Machine.execWriteCell p cell value s
  | .readCell p cell => Sys2Proof.Machine.execReadCell p cell s
  | .hold p bay => Sys2Proof.Machine.execHold p bay s
  | .resume p bay => Sys2Proof.Machine.execResume p bay s
  | .abort p bay => Sys2Proof.Machine.execAbort p bay s
  | .takeManual p bay => Sys2Proof.Machine.execTakeManual p bay s
  | .returnManual p bay => Sys2Proof.Machine.execReturnManual p bay s
  | .jog p bay speed => Sys2Proof.Machine.execJog p bay speed s
  | .readLive p bay => Sys2Proof.Machine.execReadLive p bay s
  | .peekReport p offset length => Sys2Proof.Machine.execPeekReport p offset length s
  | .takeReport p sequence => Sys2Proof.Machine.execTakeReport p sequence s
  | .queueStatus p => Sys2Proof.Machine.execQueueStatus p s

end Sys2Proof.Machine
end

