-- ==== Sys2Proof/Safety.lean ====
section
/-! DEFINITION. What the manual says always holds, as predicates on the state. -/

namespace Sys2Proof.Machine

/-! ## The manifold (R132) -/

/-- Each bay's FILL line is asserted exactly while that bay holds the manifold. -/
def ManifoldOk (s : State) : Prop := ∀ b, (s.record b).lines.fill = true ↔ s.manifold.granted = some b

/-! ## The reducer (R108, R119) -/

/-- Whether a buffer counts as a pending reduction of its bay. -/
def ListenBuffer.pending (x : ListenBuffer) : Nat := if x.state = .queued ∨ x.state = .reducing then 1 else 0

/-- The queue holds exactly the QUEUED buffers, each once; the engine holds exactly the REDUCING one; and each bay's pending reduction
count is the number of its buffers that are QUEUED or REDUCING. -/
structure ReducerOk (s : State) : Prop where
  queued : ∀ b k, (b, k) ∈ s.reducer.queue ↔ (s.buf b k).state = .queued
  once : s.reducer.queue.Nodup
  reducing : ∀ b k, (∃ t, s.reducer.engine = some ⟨b, k, t⟩) ↔ (s.buf b k).state = .reducing
  count : ∀ b, (s.record b).pendingReductions = (s.buf b .a0).pending + (s.buf b .a1).pending

/-! ## The report queue (R153, R154) -/

/-- `y` is the sequence number after the sequence number `x`. -/
def follows (x y : Option Nat) : Prop := ∃ n, x = some n ∧ 1 ≤ n ∧ n ≤ 4294967295 ∧ y = some (nextSequenceOf n)

/-- At most 16 reports with consecutive numbers from head to tail, the next number the successor of the tail's, and a waiting list that
holds an entry only while the queue is full. -/
structure QueueOk (s : State) : Prop where
  capacity : s.reports.queue.length ≤ Config.reportCapacity
  waiting : s.reports.waiting ≠ [] → s.reports.queue.length = Config.reportCapacity
  numbers : List.IsChain follows (s.reports.queue.map (·.sequence) ++ [some s.reports.nextSequence])
  next : 1 ≤ s.reports.nextSequence ∧ s.reports.nextSequence ≤ 4294967295

/-! ## The Plan Store (R41, R46) -/

/-- At most 32 entries, no two of one code, each code within 1..65534. -/
structure VariantsOk (s : State) : Prop where
  capacity : s.store.variants.length ≤ Config.variantCapacity
  ascending : s.store.variants.Pairwise (fun v w => v.code < w.code)
  codes : ∀ v ∈ s.store.variants, isVariantCode v.code = true

/-- Every countdown cell holds a value within 1..65535. -/
def CountdownOk (s : State) : Prop := ∀ i, isCountdown i = true → 1 ≤ s.store.commonAt i ∧ s.store.commonAt i ≤ 65535

/-! ## Cell settings (R4) -/

def SettingsOk (s : State) : Prop :=
  100 ≤ s.cell.stopRamp ∧ s.cell.stopRamp ≤ 2000 ∧ 1 ≤ s.cell.backlogThreshold ∧ s.cell.backlogThreshold ≤ 16

/-! ## Notices (R164, R174, R175, R178) -/

/-- A pending set in the order of R176 that holds no pair twice and no masked class; a timer and an interval within 0..1000 ms; and a
notice line asserted exactly while pairs are pending and the timer is expired. -/
structure Port.NoticesOk (p : Port) : Prop where
  ordered : p.notices.Pairwise (fun m n => m.key ≤ n.key)
  once : p.notices.Nodup
  unmasked : ∀ n ∈ p.notices, unmasked p.mask n = true
  timer : p.quietTimer ≤ 1000
  interval : p.interval ≤ 1000
  line : p.ntf = true ↔ p.notices ≠ [] ∧ p.quietTimer = 0

def NoticesOk (s : State) : Prop := ∀ p, (s.port p).NoticesOk

/-! ## Owners and drives (01, Bay states and owners; R6, R75, R76, R80, R89 to R92) -/

/-- The owners that a bay state admits. -/
def ownerAdmitted : BayState → Owner → Bool
  | .empty, o | .loaded, o => o ≠ .sequencer
  | .running, o | .held, o | .closing, o | .aborting, o => o = .sequencer
  | .finished, o | .unloading, o => o = .line

/-- The ranges of a bay configuration (R6). -/
structure BayConfig.Ok (c : BayConfig) : Prop where
  speed : 100 ≤ c.speedLimit ∧ c.speedLimit ≤ 3000
  width : 12 ≤ c.wordWidth ∧ c.wordWidth ≤ 16
  angle : c.angleOffset ≤ 63

/-- Target and setpoint stay within the speed limit; the owner decides enable; missed messages count only with enable true; and a
wind-down stands exactly in CLOSING and ABORTING. -/
structure DriveLink.Ok (d : DriveLink) (limit : Nat) (o : Owner) (st : BayState) : Prop where
  target : d.target.natAbs ≤ limit
  setpoint : d.x.natAbs ≤ 1000 * limit
  line : o = .line → d.enable = false ∧ d.target = 0 ∧ d.x = 0 ∧ d.jogTarget = 0
  sequencer : o = .sequencer → d.enable = true ∧ d.jogTarget = 0
  manual : o = .cell → d.target = d.jogTarget ∧ (d.enable = true ↔ d.jogTarget ≠ 0 ∨ d.x ≠ 0)
  jog : d.jogTarget.natAbs ≤ 300
  missed : d.missed ≤ 20 ∧ (d.enable = false → d.missed = 0)
  winding : d.windDown ≠ .none ↔ st = .closing ∨ st = .aborting

structure DrivesOk (s : State) : Prop where
  owner : ∀ b, ownerAdmitted (s.record b).state (s.record b).owner = true
  config : ∀ b, (s.bay b).config.Ok
  drive : ∀ b, (s.bay b).drive.Ok (s.bay b).config.speedLimit (s.record b).owner (s.record b).state

/-! ## Plans (R29, R33, R35, R36) -/

/-- A published plan: the chain from its head passes the walk of R35, with the recorded step count and result bound. -/
def PlanStore.chainOk (st : PlanStore) (n : Nat) : Prop :=
  ∃ head visited total, (st.entry n).head = some head ∧ st.judgeChain n head = .ok (visited, total) ∧
    (st.entry n).stepCount = some visited.length ∧ (st.entry n).resultBound = some total

/-- Every owned slot belongs to a plan that is not EMPTY; a READY or RETIRING plan has its chain; and head, step count, result bound and
end-on-fail are absent and clear outside READY and RETIRING. -/
structure PlansOk (s : State) : Prop where
  owned : ∀ k o, s.store.slotAt k = some o → isPlanNumber o.plan = true ∧ (s.store.entry o.plan).state ≠ .empty
  chain : ∀ n, isPlanNumber n = true → (s.store.entry n).state = .ready ∨ (s.store.entry n).state = .retiring → s.store.chainOk n
  absent : ∀ n, isPlanNumber n = true → (s.store.entry n).state = .empty ∨ (s.store.entry n).state = .loading →
    (s.store.entry n).head = none ∧ (s.store.entry n).stepCount = none ∧ (s.store.entry n).resultBound = none ∧
      (s.store.entry n).endOnFail = false

/-- From slot `k` the links run through the slots of a path, each owned by plan `n`, and lead to `last` (R35). -/
def PlanStore.runs (st : PlanStore) (n : Nat) : List Nat → Nat → Nat → Prop
  | [], k, last => k = last
  | x :: path, k, last => x = k ∧ ∃ rec, st.slotAt k = some ⟨n, rec⟩ ∧ st.runs n path rec.next last

/-! ## References and the cell state (R1, R2, R39, R41) -/

/-- The number of bays under test whose record names plan `n`. -/
def walkersOf (s : State) (n : Nat) : Nat :=
  allBays.countP fun b => (s.record b).state.sequenced && (s.record b).planNumber == some n

/-- Every variant names a READY plan; a plan's reference count is the number of bays that walk it, 0 for an EMPTY or LOADING plan; a
STOPPED cell has no bay under test and a STOPPING one has some. -/
structure ReferencesOk (s : State) : Prop where
  variants : ∀ v ∈ s.store.variants, isPlanNumber v.plan = true ∧ (s.store.entry v.plan).state = .ready
  counts : ∀ n, isPlanNumber n = true → (s.store.entry n).refCount = walkersOf s n
  unused : ∀ n, isPlanNumber n = true → (s.store.entry n).state = .empty ∨ (s.store.entry n).state = .loading →
    (s.store.entry n).refCount = 0
  stopped : s.cell.state = .stopped → anySequenced s = false
  stopping : s.cell.state = .stopping → anySequenced s = true

/-! ## Steps in progress and the manifold queue (R108, R109, R130, R134, R135) -/

/-- Whether some buffer of a bay is ACQUIRING. -/
def NoiseUnit.acquiring (n : NoiseUnit) : Prop := n.a0.state = .acquiring ∨ n.a1.state = .acquiring

/-- The step phases of a LEAK step. -/
def StepPhase.ofLeak : StepPhase → Bool
  | .ambient | .fillWait | .fill | .settle | .measure | .vent => true
  | .none | .entryWait | .ramping | .tracking | .dwelling | .bufferWait | .listening => false

/-- What a bay's blocks do agrees with its step phase: a phase stands only in RUNNING; the Leak Unit is in the phase that the record
shows; a buffer is ACQUIRING, one at most, and the row state is not IDLE exactly while the phase is LISTENING; the dwell accumulator
runs only in DWELLING. -/
structure Bay.StepOk (x : Bay) : Prop where
  running : x.record.phase ≠ .none → x.record.state = .running
  leak : x.leak.phase.step = if x.record.phase.ofLeak then x.record.phase else .none
  listening : x.noise.acquiring ↔ x.record.phase = .listening
  one : ¬(x.noise.a0.state = .acquiring ∧ x.noise.a1.state = .acquiring)
  row : x.noise.row = .idle ↔ x.record.phase ≠ .listening
  dwell : x.drive.dwell ≠ none → x.record.phase = .dwelling

/-- A bay is in the manifold's request queue, once, exactly while its LEAK step is in FILL_WAIT, and holds the manifold exactly while
it is in FILL; nobody waits for a FREE manifold. -/
structure StepsOk (s : State) : Prop where
  bay : ∀ b, (s.bay b).StepOk
  queued : ∀ b, b ∈ s.manifold.queue ↔ (s.bay b).leak.phase = .fillWait
  once : s.manifold.queue.Nodup
  holder : ∀ b, s.manifold.granted = some b ↔ (s.bay b).leak.phase = .fill
  busy : s.manifold.queue ≠ [] → s.manifold.granted ≠ none

/-! ## Verdicts and custody (R64, R68, R156, R163) -/

/-- The running verdict is the worst of the results, and a report of a completed CLOSING has the worst verdict of the results it
carries. -/
structure VerdictsOk (s : State) : Prop where
  running : ∀ b, (s.record b).verdict = worstOf (s.record b).results
  queued : ∀ r ∈ s.reports.queue ++ s.reports.waiting.map (·.report),
    r.verdict = .pass ∨ r.verdict = .marginal ∨ r.verdict = .incomplete ∨ r.verdict = .fail →
      r.verdict = closingVerdict (worstOf r.results)

/-- A bay is on the waiting list, once, exactly while its report status is WAITING; it is then FINISHED; and the report status is
not NONE exactly in FINISHED and UNLOADING. -/
structure CustodyOk (s : State) : Prop where
  listed : ∀ b, b ∈ s.reports.waiting.map (·.bay) ↔ (s.record b).reportStatus = .waiting
  once : (s.reports.waiting.map (·.bay)).Nodup
  finished : ∀ b, (s.record b).reportStatus = .waiting → (s.record b).state = .finished
  status : ∀ b, (s.record b).reportStatus ≠ .none ↔ (s.record b).state = .finished ∨ (s.record b).state = .unloading

/-! ## Whole-machine terms that the statements use -/

/-- The port a command arrives on; an event arrives on none. -/
def portOf : Instr → Option PortId
  | .nop p | .nextNotice p | .setNoticeMask p _ | .setNoticeInterval p _ | .present p _ _ _ | .handover p _ | .withdraw p _
  | .release p _ | .setLines p _ _ | .clearLines p _ _ | .readBay p _ | .cellRun p | .cellStop p | .clearTables p | .setCell p _ _
  | .configureBay p _ _ _ _ _ | .openPlan p _ | .writeStep p _ _ _ | .publishPlan p _ _ _ | .discardPlan p _ | .retirePlan p _
  | .readStep p _ | .readPlan p _ | .writeVariant p _ _ _ | .deleteVariant p _ | .readVariant p _ _ | .writeCell p _ _
  | .readCell p _ | .hold p _ | .resume p _ | .abort p _ | .takeManual p _ | .returnManual p _ | .jog p _ _ | .readLive p _
  | .peekReport p _ _ | .takeReport p _ | .queueStatus p => some p
  | .powerOnReset | .millisecondTick _ | .driveReport _ _ _ _ _ _ | .driveLost _ | .rampTimeout _ | .dwellEnd _
  | .windDownExpiry _ | .holdExpired _ | .pressureWord _ _ | .temperatureWord _ _ | .vibrationWord _ _
  | .foreignTagWord _ _ | .wordBreak _ | .silencePurge _ _ | .pressureLoss _ | .temperatureLoss _
  | .acquisitionTimeout _ | .reductionComplete | .fillLimitExpiry _ | .settleEnd _ | .measureEnd _
  | .ventLimitExpiry _ | .inputLineChange _ _ _ | .quietTimerExpiry _ | .transferStart _ | .requestTaken _ _ _
  | .responseReady _ => none

/-- The one bay that an event or command acts on, when there is one. -/
def bayOf : Instr → Option BayId
  | .driveReport b _ _ _ _ _ | .driveLost b | .rampTimeout b | .dwellEnd b | .windDownExpiry b | .holdExpired b | .pressureWord b _
  | .temperatureWord b _ | .vibrationWord b _ | .foreignTagWord b _ | .wordBreak b | .silencePurge b _ | .pressureLoss b
  | .temperatureLoss b | .acquisitionTimeout b | .fillLimitExpiry b | .settleEnd b | .measureEnd b | .ventLimitExpiry b
  | .inputLineChange b _ _ => some b
  | .present _ n _ _ | .handover _ n | .withdraw _ n | .release _ n | .setLines _ n _ | .clearLines _ n _ | .readBay _ n
  | .configureBay _ n _ _ _ _ | .hold _ n | .resume _ n | .abort _ n | .takeManual _ n | .returnManual _ n | .jog _ n _
  | .readLive _ n => bayOfCode n
  | .powerOnReset | .millisecondTick _ | .reductionComplete | .quietTimerExpiry _ | .transferStart _ | .requestTaken _ _ _
  | .responseReady _ | .nop _ | .nextNotice _ | .setNoticeMask _ _ | .setNoticeInterval _ _ | .cellRun _ | .cellStop _
  | .clearTables _ | .setCell _ _ _ | .openPlan _ _ | .writeStep _ _ _ _ | .publishPlan _ _ _ _ | .discardPlan _ _
  | .retirePlan _ _ | .readStep _ _ | .readPlan _ _ | .writeVariant _ _ _ _ | .deleteVariant _ _ | .readVariant _ _ _
  | .writeCell _ _ _ | .readCell _ _ | .peekReport _ _ _ | .takeReport _ _ | .queueStatus _ => none

/-- The state after port `p` has taken the answer of its command: the response in preparation, with the tag of the request (R168, R169). Its
NOTICE flag shows the pending set of `s`, the state with the command's own changes made, which is the model's choice (log 36); so are
the tag 0 and the unchanged port state of a command that no frame brought (log 10). -/
def answered (p : PortId) (cmd : Instr) (st : Status) (payload : List Byte) (s : State) : State :=
  mapPort p (Port.prepare cmd st payload) s

/-- The notice is pending at every port that has not masked its class (R174). -/
def Offered (n : Notice) (s : State) : Prop := ∀ p, unmasked (s.port p).mask n = true → n ∈ (s.port p).notices

/-- The ports hold what they held but for raised notices and their lines (R174, R178). -/
def PortsRaised (s t : State) : Prop := ∀ p, { t.port p with notices := (s.port p).notices, ntf := (s.port p).ntf } = s.port p

/-- Bay `b` after the posting of results: they are appended in order, the running verdict takes the worst, and a FAIL ends the plan of an
end-on-fail bay (R62, R64, R66). -/
def posted (b : BayId) (rs : List Result) (s : State) : State :=
  mapRecord b (fun r => { r with
    results := r.results ++ rs, verdict := rs.foldl (fun v x => worse v x.verdict) r.verdict,
    endRequest := r.endRequest || (endOnFailOf s b && rs.any fun x => decide (x.verdict = .fail)) }) s

/-- What a bay in RUNNING, HELD or CLOSING holds when it has entered ABORTING with a cause, before its wind-down is examined, where `s`
is the state with the event's own part done (R20, R89, R118, R123, R124, R134, R150), and what it leaves. -/
structure AbortEntered (b : BayId) (c : Cause) (s t : State) : Prop where
  record : t.record b = { s.record b with
    state := .aborting, cause := some c, holdRequest := false, endRequest := false, phase := .none, holdPoint := none,
    latched := none, startTemperature := none, pendingReductions := (t.record b).pendingReductions, lines := (t.record b).lines }
  drive : (t.bay b).drive =
    if (s.record b).state = .closing then { (s.bay b).drive with dwell := none }
    else { (s.bay b).drive with target := 0, rampRate := s.cell.stopRamp, windDown := .inProgress s.now, dwell := none }
  rest : (t.bay b).config = (s.bay b).config ∧ (t.bay b).sensor = (s.bay b).sensor
  buffers : ∀ k, (t.buf b k).state ≠ .acquiring ∧ (t.buf b k).state ≠ .queued ∧
    ((t.buf b k).state = .reducing → (t.buf b k).discard = true)
  reducer : t.reducer.engine = s.reducer.engine ∧ t.reducer.queue = s.reducer.queue.filter (fun e => decide (e.1 ≠ b))
  manifold : b ∉ t.manifold.queue ∧ t.manifold.granted ≠ some b ∧ (t.bay b).leak.phase = .idle
  vent : (s.bay b).config.map.vent = .driven → (t.record b).lines.vent = true
  sealHeads : (s.bay b).config.map.sealHeads = .driven → (t.record b).lines.sealHeads = false
  notice : Offered (if c.isCommand then .aborted b else .fault b) t ∧ Offered (.bayState b) t
  shared : t.cell = s.cell ∧ t.store = s.store ∧ t.reports = s.reports ∧ PortsRaised s t

/-- The Report Queue has taken report `rep` of bay `b`: committed with the next sequence number while it holds fewer than 16 reports, with
BACKLOG raised when the mark was clear and the threshold is reached, else on the waiting list (R154, R155, R162). -/
def ReportTaken (b : BayId) (rep : Report) (s t : State) : Prop :=
  if s.reports.queue.length < 16 then
    t.reports.queue = s.reports.queue ++ [{ rep with sequence := some s.reports.nextSequence }] ∧
    t.reports.nextSequence = nextSequenceOf s.reports.nextSequence ∧ t.reports.waiting = s.reports.waiting ∧
    t.reports.backlog = decide (s.cell.backlogThreshold ≤ s.reports.queue.length + 1) ∧
    (s.reports.backlog = false → s.cell.backlogThreshold ≤ s.reports.queue.length + 1 → Offered .backlog t) ∧
    (t.record b).reportStatus = .committed ∧ Offered (.readyToRelease b) t ∧ Offered .reportAvailable t
  else t.reports = { s.reports with waiting := s.reports.waiting ++ [⟨b, rep⟩] } ∧ (t.record b).reportStatus = .waiting

/-- The report of bay `b` as it stands, with a verdict, a cause and a secondary fault (R151, R152). -/
def reportOf (b : BayId) (v : FinalVerdict) (cause secondary : Option Cause) (s : State) : Report :=
  { sequence := none, bay := b, serial := (s.record b).serial.getD [], variantCode := (s.record b).variantCode,
    planNumber := (s.record b).planNumber.getD 0, planVersion := (s.record b).planVersion.getD 0, verdict := v, cause := cause,
    secondary := secondary, audit := (s.record b).audit, adjusted := (s.record b).adjusted,
    handoverTime := (s.record b).handoverTime, finishTime := s.now, results := (s.record b).results }

/-- Bay `b` has given up its reference on plan `n`; a RETIRING plan that nobody walks any more is EMPTY (R39, R71). -/
def ReferenceReturned (n : Nat) (s t : State) : Prop :=
  if (s.store.entry n).state = .retiring ∧ (s.store.entry n).refCount ≤ 1 then
    t.store.entry n = ⟨.empty, none, (s.store.entry n).version, false, 0, none, none⟩ ∧ Offered (.planRetired n) t ∧
    ∀ k o, s.store.slotAt k = some o → t.store.slotAt k = if o.plan = n then none else some o
  else t.store.entry n = { s.store.entry n with refCount := (s.store.entry n).refCount - 1 } ∧ t.store.slots = s.store.slots

/-- What a bay holds that has entered FINISHED from CLOSING or ABORTING, with the report that it left, where `s` is the state with the
event's own part done (R2, R39, R71, R151, R152, R154), and what it leaves. -/
structure FinishedWith (b : BayId) (v : FinalVerdict) (cause secondary : Option Cause) (s t : State) : Prop where
  record : t.record b = { s.record b with
    state := .finished, owner := .line, phase := .none, holdPoint := none, cause := cause, secondary := secondary,
    reportStatus := (t.record b).reportStatus, pendingReductions := (t.record b).pendingReductions }
  drive : (t.bay b).drive = { (s.bay b).drive with
    enable := false, missed := 0, lostGiven := false, x := 0, target := 0, windDown := .none }
  watch : (t.bay b).sensor = { (s.bay b).sensor with lossWatch := none }
  rest : (t.bay b).config = (s.bay b).config ∧ (t.bay b).leak = (s.bay b).leak
  notice : Offered (.owner b) t ∧ Offered (.bayState b) t
  report : ReportTaken b (reportOf b v cause secondary s) s t
  reference : ∀ n, (s.record b).planNumber = some n → isPlanNumber n = true → ReferenceReturned n s t
  others : ∀ m, (s.record b).planNumber ≠ some m → t.store.entry m = s.store.entry m
  tables : t.store.variants = s.store.variants ∧ t.store.common = s.store.common
  lastBay : s.cell.state = .stopping → (∀ c, c ≠ b → (s.record c).state.sequenced = false) →
    t.cell = { s.cell with state := .stopped } ∧ Offered .cellState t
  otherBay : s.cell.state ≠ .stopping ∨ (∃ c, c ≠ b ∧ (s.record c).state.sequenced = true) → t.cell = s.cell
  shared : t.manifold = s.manifold ∧ PortsRaised s t

/-- Only the Leak Unit, the Manifold Arbiter and what a LEAK step moves in the record of bay `b` differ between two states. -/
structure LeakMoved (b : BayId) (s t : State) : Prop where
  record : t.record b = { s.record b with
    phase := (t.record b).phase, lines := (t.record b).lines, results := (t.record b).results, verdict := (t.record b).verdict,
    endRequest := (t.record b).endRequest }
  rest : (t.bay b).config = (s.bay b).config ∧ (t.bay b).drive = (s.bay b).drive ∧ (t.bay b).sensor = (s.bay b).sensor ∧
    (t.bay b).noise = (s.bay b).noise
  shared : t.cell = s.cell ∧ t.store = s.store ∧ t.reducer = s.reducer ∧ t.reports = s.reports ∧ t.ports = s.ports ∧
    t.pending = s.pending

/-- A result has been posted to bay `b` between two states (R62, R64, R66). -/
def Posted (b : BayId) (r : Result) (s t : State) : Prop :=
  (t.record b).results = (s.record b).results ++ [r] ∧ (t.record b).verdict = worse (s.record b).verdict r.verdict ∧
  (t.record b).endRequest = ((s.record b).endRequest || (endOnFailOf s b && decide (r.verdict = .fail)))

/-- No result has been posted to bay `b` between two states: its results, running verdict and end request stay. -/
def Unposted (b : BayId) (s t : State) : Prop :=
  (t.record b).results = (s.record b).results ∧ (t.record b).verdict = (s.record b).verdict ∧
  (t.record b).endRequest = (s.record b).endRequest

/-- A LEAK result has been posted between two states, unless the result posted mark was set (R146). -/
def LeakPosted (b : BayId) (r : Result) (s t : State) : Prop :=
  if (s.bay b).leak.posted then Unposted b s t else Posted b r s t

/-- The lines of bay `b` under the sequencer between two states: a DRIVEN line stands at its sequencer value, CLAMP and COUPLE asserted and
SEAL and VENT as given, and a HELD line keeps its value (R25). FILL is the arbiter's and is not said here (R132). -/
def LinesDriven (b : BayId) (sealed vented : Bool) (s t : State) : Prop :=
  let m := (s.bay b).config.map
  let l := (s.record b).lines
  (t.record b).lines =
    { clamp := if m.clamp = .driven then true else l.clamp
      couple := if m.couple = .driven then true else l.couple
      sealHeads := if m.sealHeads = .driven then sealed else l.sealHeads
      fill := (t.record b).lines.fill
      vent := if m.vent = .driven then vented else l.vent }

/-- AMBIENT of bay `b` has ended with the ambient pressure `pa`: the bay fills when the manifold is free, and else waits at the tail of its
queue (R131, R132, R137 to R139), with a DRIVEN VENT de-asserted and a DRIVEN SEAL asserted in both (R25, R138). -/
structure AmbientEnded (b : BayId) (pa : Int) (s t : State) : Prop where
  moved : LeakMoved b s t
  unposted : Unposted b s t
  lines : (s.record b).owner = .sequencer → (s.record b).state = .running → LinesDriven b true false s t
  free : s.manifold.granted = none → (t.bay b).leak = { (s.bay b).leak with
      phase := .fill, phaseStart := some s.now, ambient := some pa, startMeans := none, highest := none } ∧
    (t.record b).phase = .fill ∧ (t.record b).lines.fill = true ∧ t.manifold = ⟨some b, []⟩
  held : ∀ c, s.manifold.granted = some c →
    (t.bay b).leak = { (s.bay b).leak with phase := .fillWait, phaseStart := none, ambient := some pa, startMeans := none } ∧
    (t.record b).phase = .fillWait ∧ (t.record b).lines.fill = (s.record b).lines.fill ∧
    t.manifold = ⟨some c, s.manifold.queue ++ [b]⟩

/-- A Drive Link after a jog stop with the stop ramp in force: a jog target of 0 leaves everything; otherwise the target falls to 0 and
enable stays true while x is not 0 (R75, R76, R93). -/
def DriveLink.jogStopped (stopRamp : Nat) (d : DriveLink) : DriveLink :=
  if d.jogTarget = 0 then d
  else if d.x = 0 then
    { d with jogTarget := 0, target := 0, rampRate := stopRamp, enable := false, missed := 0, lostGiven := false }
  else { d with jogTarget := 0, target := 0, rampRate := stopRamp, enable := true }

/-- A Drive Link that has taken a report in answer to its last message (R74, R77, R86): the report is the latest one, the counts start
anew, the mark follows the state, and a dwell in progress counts the torque of a report other than a FAULT report. -/
def DriveLink.reported (rep : DriveReport) (d : DriveLink) : DriveLink :=
  { d with
    latest := some rep, missed := 0, reportAge := 0, awaited := none, lostGiven := false, faultSeen := decide (rep.state = .fault),
    dwell := d.dwell.map fun acc =>
      if rep.state = .fault then acc else ⟨acc.count + 1, acc.sum + rep.torque.natAbs, max acc.peak rep.torque.natAbs⟩ }

/-- A Drive Link that has sent the message of a millisecond (R73, R74, R76, R107): the message before is settled, unanswered it counts as
missed while enable is true, and the new one carries its check (R165; the byte layout under the check is log 22's). -/
def DriveLink.messaged (d : DriveLink) : DriveLink :=
  { d with
    missed := if d.awaited ≠ none ∧ d.enable = true then min 20 (d.missed + 1) else d.missed
    sent := some ⟨d.sequence, d.enable, d.x.tdiv 1000, d.torqueLimit,
      messageCheck d.sequence d.enable (d.x.tdiv 1000) d.torqueLimit⟩
    awaited := some d.sequence, sequence := d.sequence + 1, reportAge := min 65535 (d.reportAge + 1) }

/-- The states in which a fault or an abort command enters ABORTING (R19, R20). -/
def BayState.abortable (st : BayState) : Prop := st = .running ∨ st = .held ∨ st = .closing

/-- The drive of bay `b` still turns: x is not 0 or the latest report shows more than 5 rpm, and no wind-down is over (R90). -/
def Turning (b : BayId) (s : State) : Prop :=
  (s.bay b).drive.windDown ≠ .over ∧ ((s.bay b).drive.x ≠ 0 ∨ 5 < ((s.bay b).drive.latest.elim 0 (·.speed)).natAbs)

/-- A bay in RUNNING, HELD or CLOSING has taken an abort with a cause, where `s` is the state with the event's own part done: with the
drive turning it is in ABORTING; otherwise it has passed through ABORTING, as state `u` shows, into FINISHED (R20, R70, R90). -/
def AbortTaken (b : BayId) (c : Cause) (s t : State) : Prop :=
  (Turning b s → AbortEntered b c s t) ∧
  (¬Turning b s → Offered (if c.isCommand then .aborted b else .fault b) t ∧ ∃ u, AbortEntered b c s u ∧
    FinishedWith b (if (s.record b).secondary = none ∧ c.isCommand = true then .aborted else .fault) (some c)
      (s.record b).secondary u t)

/-- What a bay holds that has entered CLOSING under the sequencer, before its wind-down is examined, and what it leaves (R25, R67, R89). -/
structure ClosingEntered (b : BayId) (s t : State) : Prop where
  record : t.record b = { s.record b with
    state := .closing, phase := .none, holdRequest := false, holdPoint := none, latched := none, startTemperature := none,
    lines := (t.record b).lines }
  drive : (t.bay b).drive = { (s.bay b).drive with target := 0, rampRate := s.cell.stopRamp, windDown := .inProgress s.now }
  rest : (t.bay b).config = (s.bay b).config ∧ (t.bay b).sensor = (s.bay b).sensor ∧ (t.bay b).noise = (s.bay b).noise ∧
    (t.bay b).leak = (s.bay b).leak
  vent : (t.record b).lines.vent = ((s.bay b).config.map.vent = .driven || (s.record b).lines.vent)
  sealHeads : (s.bay b).leak.phase = .idle → (t.record b).lines.sealHeads =
    (decide ((s.bay b).config.map.sealHeads = .held) && (s.record b).lines.sealHeads)
  fill : (t.record b).lines.fill = (s.record b).lines.fill
  notice : Offered (.bayState b) t
  shared : t = { s with bays := t.bays, ports := t.ports } ∧ (∀ c, c ≠ b → t.bay c = s.bay c) ∧ PortsRaised s t

/-- A response that its frame can carry: a length byte of at most 56 (09, Byte layouts). -/
def Response.Fits (r : Response) : Prop := r.payload.length ≤ 56

/-- Every response and every frame of the ports fits the layout, and every recorded serial number has 1 to 20 bytes (R10). -/
structure FramesOk (s : State) : Prop where
  preparing : ∀ p r, (s.port p).preparing = some r → r.Fits
  response : ∀ p r, (s.port p).response = some r → r.Fits
  shifted : ∀ p, (s.port p).shiftedOut.length ≤ 62
  serial : ∀ b bs, (s.record b).serial = some bs → 1 ≤ bs.length ∧ bs.length ≤ 20

end Sys2Proof.Machine
end

