-- ==== Sys2Proof/WellFormed.lean ====
section
/-! DEFINITION. Well-formed commands: what a frame can carry (09, The command catalogue) and what the senders of events deliver. A
meaning does not ask for it: a number that fits no field is refused as its rule refuses an argument out of range. -/

namespace Sys2Proof

/-- A number of `k` bytes. -/
def fits (k n : Nat) : Bool := n < 256 ^ k

/-- A two's-complement number of `k` bytes. -/
def fitsSigned (k : Nat) (v : Int) : Bool := -(256 ^ k : Nat) ≤ 2 * v && 2 * v < (256 ^ k : Nat)

/-- The argument of a reference fits its three bytes. -/
def Ref.wellFormed : Ref → Bool
  | .immediate v => fitsSigned 3 v
  | .variant i | .common i | .indirect i => fits 3 i

/-- The audit cell stands in a record exactly with skip test AUDIT, and every field fits its byte. -/
def StepRecord.wellFormed (r : StepRecord) : Bool :=
  r.auditCell.isSome == decide (r.skip = .audit) && fits 1 (r.auditCell.getD 0) && fits 1 r.next && r.refs.toList.all Ref.wellFormed

/-- Each Drive Link takes one generator step in a millisecond. -/
def tickOrderOk (order : List BayId) : Bool := order.length == 4 && order.eraseDups.length == 4

def Instr.wellFormed : Instr → Bool
  | .millisecondTick order => tickOrderOk order
  | .requestTaken _ _ extraBits => extraBits < 8
  | .setNoticeInterval _ ms => fits 2 ms
  | .present _ b serial code => fits 1 b && 1 ≤ serial.length && serial.length ≤ 20 && fits 2 code
  | .handover _ b | .withdraw _ b | .release _ b | .readBay _ b | .hold _ b | .resume _ b | .abort _ b | .takeManual _ b
  | .returnManual _ b | .readLive _ b | .setLines _ b _ | .clearLines _ b _ => fits 1 b
  | .setCell _ ramp threshold => fits 2 ramp && fits 1 threshold
  | .configureBay _ b speed width angle _ => fits 1 b && fits 2 speed && fits 1 width && fits 1 angle
  | .openPlan _ n | .discardPlan _ n | .retirePlan _ n | .readPlan _ n => fits 1 n
  | .writeStep _ n k r => fits 1 n && fits 1 k && r.wellFormed
  | .publishPlan _ n head _ => fits 1 n && fits 1 head
  | .readStep _ k => fits 1 k
  | .writeVariant _ code n cells => fits 2 code && fits 1 n && cells.toList.all (fitsSigned 3)
  | .deleteVariant _ code => fits 2 code
  | .readVariant _ code start => fits 2 code && fits 1 start
  | .writeCell _ i v => fits 1 i && fitsSigned 3 v
  | .readCell _ i => fits 1 i
  | .jog _ b v => fits 1 b && fitsSigned 2 v
  | .peekReport _ offset length => fits 2 offset && fits 1 length
  | .takeReport _ n => fits 4 n
  | .powerOnReset | .driveReport _ _ _ _ _ _ | .driveLost _ | .rampTimeout _ | .dwellEnd _ | .windDownExpiry _
  | .holdExpired _ | .pressureWord _ _ | .temperatureWord _ _ | .vibrationWord _ _ | .foreignTagWord _ _ | .wordBreak _
  | .silencePurge _ _ | .pressureLoss _ | .temperatureLoss _ | .acquisitionTimeout _ | .reductionComplete
  | .fillLimitExpiry _ | .settleEnd _ | .measureEnd _ | .ventLimitExpiry _ | .inputLineChange _ _ _ | .quietTimerExpiry _
  | .transferStart _ | .responseReady _ | .nop _ | .nextNotice _ | .setNoticeMask _ _ | .cellRun _ | .cellStop _
  | .clearTables _ | .queueStatus _ => true

end Sys2Proof
end

