-- ==== Sys2Proof/Certificates/Slice0/Obligations.lean ====
section
/-! DEFINITION. The statements for the provers. Each names in its docstring the rule it formalises, or says that it rests on a choice
of the model and names the log entry. -/

open Sys2Proof Sys2Proof.Machine

/-! ## Steps, reset and power-on -/

/-- The command at the front of the queue is taken and executed with the queue's rest; an empty queue changes nothing, and no command
changes the queue (the model's own queue: log entries 1 and 24; each row is one indivisible step, 95_what_each_step_holds.md). -/
def Obligations.StepExecutesFrontCommand : Prop :=
  (∀ (c : Instr) (cs : List Instr) (s : State), step { s with pending := c :: cs } = exec c { s with pending := cs }) ∧
  (∀ s : State, s.pending = [] → step s = .next s) ∧
  (∀ (i : Instr) (s t : State), exec i s = .next t → t.pending = s.pending)

/-- The values that the manual gives for power-on reset, and POWER_ON_RESET, which puts every block at them with the input lines as they
stand (R1, R3, R4, R6, R7, R22, R29, R33, R41, R45, R72, R94, R108, R109, R119, R130, R135, R153, R164); that the queue of waiting
commands stays is the model's choice (log 25). -/
def Obligations.ResetGivesPowerOnValues : Prop :=
  State.reset.cell = { state := .stopped, time := 0, stopRamp := 500, backlogThreshold := 12 } ∧
  (∀ k, State.reset.store.slotAt k = none) ∧
  (∀ n, isPlanNumber n = true → State.reset.store.entry n = ⟨.empty, none, 0, false, 0, none, none⟩) ∧
  State.reset.store.variants = [] ∧
  (∀ i, i ≤ 55 → State.reset.store.commonAt i = 0) ∧ (∀ i, isCountdown i = true → State.reset.store.commonAt i = 1) ∧
  (∀ b, (State.reset.bay b).config = ⟨1500, 16, 0, ⟨.held, .held, .driven, .driven⟩⟩ ∧
    (State.reset.record b).state = .empty ∧ (State.reset.record b).owner = .line ∧ (State.reset.record b).serial = none ∧
    (State.reset.record b).variantCode = 0 ∧ (State.reset.record b).planNumber = none ∧ (State.reset.record b).slot = none ∧
    (State.reset.record b).phase = .none ∧ (State.reset.record b).verdict = .pass ∧ (State.reset.record b).results = [] ∧
    (State.reset.record b).pendingReductions = 0 ∧ (State.reset.record b).reportStatus = .none ∧
    (State.reset.record b).lines = ⟨false, false, false, false, false⟩ ∧
    (State.reset.bay b).drive.x = 0 ∧ (State.reset.bay b).drive.target = 0 ∧ (State.reset.bay b).drive.rampRate = 200 ∧
    (State.reset.bay b).drive.torqueLimit = 2000 ∧ (State.reset.bay b).drive.enable = false ∧
    (State.reset.bay b).drive.latest = none ∧ (State.reset.bay b).drive.reportAge = 65535 ∧
    (State.reset.bay b).sensor = ⟨[], [], 65535, 65535, none, 65535, 0, none⟩ ∧
    (∀ k, (State.reset.buf b k).state = .free ∧ (State.reset.buf b k).revolutions = 0) ∧
    (State.reset.bay b).noise.row = .idle ∧ (State.reset.bay b).leak.phase = .idle) ∧
  State.reset.reducer = ⟨[], none⟩ ∧ State.reset.manifold = ⟨none, []⟩ ∧ State.reset.reports = ⟨[], 1, [], false⟩ ∧
  (∀ p, (State.reset.port p).state = .quiet ∧ (State.reset.port p).response = none ∧ (State.reset.port p).cutMark = false ∧
    (State.reset.port p).notices = [] ∧ (State.reset.port p).interval = 0 ∧ (State.reset.port p).quietTimer = 0 ∧
    (State.reset.port p).ntf = false) ∧
  (∀ n : Notice, (unmasked (State.reset.port .line).mask n = true ↔ n.cls ≤ 5) ∧
    unmasked (State.reset.port .cell).mask n = true ∧ (unmasked (State.reset.port .archive).mask n = true ↔ 9 ≤ n.cls)) ∧
  ∀ s : State, ∃ t, exec .powerOnReset s = .next t ∧
    t.cell = State.reset.cell ∧ t.store = State.reset.store ∧ t.reducer = State.reset.reducer ∧
    t.manifold = State.reset.manifold ∧ t.reports = State.reset.reports ∧ t.ports = State.reset.ports ∧ t.pending = s.pending ∧
    ∀ b, t.bay b = { State.reset.bay b with record := { State.reset.record b with inputs := (s.record b).inputs } }

/-- Every invariant that is stated below holds right after reset. -/
def Obligations.InvariantsHoldAtReset : Prop :=
  ManifoldOk State.reset ∧ ReducerOk State.reset ∧ QueueOk State.reset ∧ VariantsOk State.reset ∧ CountdownOk State.reset ∧
  SettingsOk State.reset ∧ NoticesOk State.reset ∧ DrivesOk State.reset ∧ PlansOk State.reset ∧ ReferencesOk State.reset ∧
  StepsOk State.reset ∧ VerdictsOk State.reset ∧ CustodyOk State.reset ∧ FramesOk State.reset

/-! ## What every step keeps -/

/-- The FILL line of each bay is asserted exactly while that bay holds the manifold (R132); the reducer queue holds exactly the QUEUED
buffers, the engine the one REDUCING buffer, and each pending count is the number of the bay's buffers in either state (R108). -/
def Obligations.SharedBlocksFollowBays : Prop :=
  (∀ s t : State, ManifoldOk s → step s = .next t → ManifoldOk t) ∧
  (∀ s t : State, ReducerOk s → step s = .next t → ReducerOk t)

/-- At most 16 reports with consecutive sequence numbers, and a report waits only behind a full queue (R153, R154); the running verdict
is the worst of the results (R64), and a report of a completed CLOSING has the worst verdict of the results it carries (R68, R152). -/
def Obligations.ReportsStayNumberedAndGraded : Prop :=
  (∀ s t : State, QueueOk s → step s = .next t → QueueOk t) ∧
  (∀ s t : State, VerdictsOk s → step s = .next t → VerdictsOk t)

/-- A pending set holds no pair twice and no masked class, and the notice line is asserted exactly with pairs pending and the timer
expired (R164, R174, R175, R178; that the set is kept in the order of NEXT NOTICE is log 34's). Every response in preparation, pending
or on the wire keeps to 56 payload bytes, and a recorded serial number has 1 to 20 bytes (R10, R168; 09, Byte layouts). -/
def Obligations.PortsKeepNoticesAndFrames : Prop :=
  (∀ s t : State, NoticesOk s → step s = .next t → NoticesOk t) ∧
  (∀ s t : State, CustodyOk s → FramesOk s → step s = .next t → FramesOk t)

/-- The variant table, the countdown cells and the cell settings stay within their ranges (R41, R46, R4). -/
def Obligations.StoredValuesStayInRange : Prop :=
  (∀ s t : State, VariantsOk s → step s = .next t → VariantsOk t) ∧
  (∀ s t : State, CountdownOk s → step s = .next t → CountdownOk t) ∧
  (∀ s t : State, SettingsOk s → step s = .next t → SettingsOk t)

/-- Every slot reachable from the head of a READY or RETIRING plan belongs to that plan and its chain keeps the limits of publication
(R36), and an EMPTY plan owns no slot (R34). -/
def Obligations.PublishedChainsStayValid : Prop := ∀ s t : State, PlansOk s → step s = .next t → PlansOk t

/-- Every variant names a READY plan (R41), each reference count is the number of bays that walk the plan (R39), and a STOPPED cell has
no bay under test (R1, R2). -/
def Obligations.ReferenceCountsMatchWalkers : Prop :=
  ∀ s t : State, StepsOk s → ReferencesOk s → step s = .next t → ReferencesOk t

/-- Each state admits its owners; no target or setpoint leaves the speed limit (R71, R80); enable follows the owner (R75); and a
wind-down stands exactly in CLOSING and ABORTING (R89 to R91). -/
def Obligations.DrivesStayWithinLimits : Prop :=
  ∀ s t : State, StepsOk s → DrivesOk s → step s = .next t → DrivesOk t

/-- The Leak Unit, Noise Acquisition and the Manifold Arbiter agree with each bay's step phase (R108, R109, R130, R134, R135). -/
def Obligations.StepPhasesMatchBlocks : Prop :=
  ∀ s t : State, ReducerOk s → StepsOk s → step s = .next t → StepsOk t

/-- A bay is on the waiting list, once, exactly while its report status is WAITING, which it is only in FINISHED (R156, R163). -/
def Obligations.ReportCustodyIsKept : Prop :=
  ∀ s t : State, StepsOk s → CustodyOk s → step s = .next t → CustodyOk t

/-! ## Whole-machine rules -/

/-- A command on a port that does not carry it is refused with WRONG_PORT; a refused command changes no state but the answer of its
port, and its answer is empty but for PLAN_INVALID (R9, R168, R169). -/
def Obligations.RefusedCommandChangesNothing : Prop :=
  (∀ (i : Instr) (p : PortId) (s : State), portOf i = some p → p ∉ carriedOn i → exec i s = .next (answered p i .wrongPort [] s)) ∧
  (∀ (i : Instr) (p : PortId) (s t : State) (r : Response), portOf i = some p → exec i s = .next t →
    (t.port p).preparing = some r → r.status ≠ .ok →
    t = answered p i r.status r.payload s ∧ (r.status ≠ .planInvalid → r.payload = []))

/-- An event or command of one bay leaves another bay's configuration, drive, sensors and buffers alone, and its record but for the step
phase and lines that a grant of the manifold moves (R80, R95, R132, R133; a buffer of another bay changes state only when the engine
takes it); a port that did not bring it takes nothing but notices (R174). -/
def Obligations.BayEventsKeepOtherBays : Prop :=
  ∀ (i : Instr) (b c : BayId) (s t : State), bayOf i = some b → c ≠ b → exec i s = .next t →
    (t.bay c).config = (s.bay c).config ∧ (t.bay c).drive = (s.bay c).drive ∧ (t.bay c).sensor = (s.bay c).sensor ∧
    { t.record c with phase := (s.record c).phase, lines := (s.record c).lines } = s.record c ∧
    (∀ k, { t.buf c k with state := (s.buf c k).state } = s.buf c k) ∧
    (t.bay c).noise.row = (s.bay c).noise.row ∧ (t.bay c).noise.staging = (s.bay c).noise.staging ∧
    ∀ q, portOf i ≠ some q → { t.port q with notices := (s.port q).notices, ntf := (s.port q).ntf } = s.port q

/-- A slot of a READY or RETIRING plan keeps its record as long as the plan has not returned to EMPTY (R31, R36, R57). -/
def Obligations.PublishedStepsAreNotWritten : Prop :=
  ∀ (i : Instr) (s t : State) (k : Nat) (o : OwnedStep), exec i s = .next t → s.store.slotAt k = some o →
    isPlanNumber o.plan = true → (s.store.entry o.plan).state = .ready ∨ (s.store.entry o.plan).state = .retiring →
    t.store.slotAt k = some o ∨ (t.store.entry o.plan).state = .empty

/-! ## Frames -/

/-- The check of the text "123456789" is 29B1 hex, and the check run over a whole frame, check bytes included, leaves 0000 (R165). -/
def Obligations.FrameCheckLeavesZero : Prop :=
  crc [0x31, 0x32, 0x33, 0x34, 0x35, 0x36, 0x37, 0x38, 0x39] = 0x29B1#16 ∧ ∀ bytes : List Byte, crc (withCheck bytes) = 0#16

/-- The frame of every well-formed command, with whatever bytes follow it, is taken as that command with its tag on every port that
carries it (R167, R168, R170 to R172). -/
def Obligations.RequestFrameRoundTrip : Prop :=
  ∀ (cmd : Instr) (p : PortId) (tag : Byte) (extra : List Byte), cmd.wellFormed = true → portOf cmd = some p → p ∈ carriedOn cmd →
    takeFrame p (requestFrame tag cmd ++ extra) 0 = .command tag cmd

/-! ## Arithmetic -/

/-- The temperature mean, defined with 16 samples, rounds half up (R102). Beside it the pressure mean (R101) and the two ways of asking:
a mean is available with 16 samples, and available since a cell time when the oldest of them was taken no longer ago than that time,
both differences modulo 2^32 (R103). -/
def Obligations.TemperatureMeanRoundsHalfUp : Prop :=
  (∀ l : SensorLink, (l.temperature.length ≠ 16 → l.temperatureNow = none) ∧
    (l.temperature.length = 16 → (∀ x ∈ l.temperature, -4000 ≤ x.word ∧ x.word ≤ 15000) →
      -64000 ≤ (l.temperature.map (·.word)).sum ∧ (l.temperature.map (·.word)).sum ≤ 240000 ∧
      ∃ m : Int, l.temperatureNow = some (m + 27315) ∧ 16 * m ≤ (l.temperature.map (·.word)).sum + 8 ∧
        (l.temperature.map (·.word)).sum + 8 < 16 * (m + 1) ∧ -4000 ≤ m ∧ m ≤ 15000 ∧
        23315 ≤ m + 27315 ∧ m + 27315 ≤ 42315)) ∧
  (∀ l : SensorLink, (l.pressure.length ≠ 16 → l.pressureNow = none) ∧
    (l.pressure.length = 16 → (∀ x ∈ l.pressure, 0 ≤ x.word ∧ x.word ≤ 65535) →
      0 ≤ (l.pressure.map (·.word)).sum ∧ (l.pressure.map (·.word)).sum ≤ 1048560 ∧
      ∃ p : Int, l.pressureNow = some p ∧ 4 * p ≤ (l.pressure.map (·.word)).sum + 2 ∧
        (l.pressure.map (·.word)).sum + 2 < 4 * (p + 1) ∧ 0 ≤ p ∧ p ≤ 262140)) ∧
  ∀ (l : SensorLink) (now t : Time),
    (l.pressure.length ≠ 16 → l.pressureSince now t = none) ∧ (l.temperature.length ≠ 16 → l.temperatureSince now t = none) ∧
    (∀ x rest, l.pressure = x :: rest → l.pressure.length = 16 →
      l.pressureSince now t = if (now - x.time).toNat ≤ (now - t).toNat then l.pressureNow else none) ∧
    (∀ x rest, l.temperature = x :: rest → l.temperature.length = 16 →
      l.temperatureSince now t = if (now - x.time).toNat ≤ (now - t).toNat then l.temperatureNow else none)

/-- The fixed tables by their first 17 entries and their symmetries (R126); the averages lie within -32768..32767, each lane average
rounded half up (R125); the level is formed from the two correlations (R127, R128), and no level exceeds 49,152. -/
def Obligations.NoiseLevelIsBounded : Prop :=
  ((List.range 17).map cosT = [16384, 16305, 16069, 15679, 15137, 14449, 13623, 12665, 11585, 10394, 9102, 7723, 6270, 4756, 3196,
    1606, 0] ∧ (∀ i, 17 ≤ i → i ≤ 32 → cosT i = -cosT (32 - i)) ∧ (∀ i, 33 ≤ i → i ≤ 63 → cosT i = cosT (64 - i)) ∧
    (∀ i, cosT i = cosT (i % 64) ∧ sinT i = cosT ((i + 48) % 64) ∧ cosT (i + 32) = -cosT i)) ∧
  ∀ (k q : Nat) (lanes : Vector Int Config.laneCount),
    (∀ C S : Int, C = ∑ a : Fin Config.laneCount, laneAverage k lanes[a] * cosT (q * a.val % 64) →
      S = ∑ a : Fin Config.laneCount, laneAverage k lanes[a] * sinT (q * a.val % 64) →
      level k q lanes = ((max C.natAbs S.natAbs + min C.natAbs S.natAbs / 2 + 262144) / 524288 : Nat)) ∧
    (4 ≤ k → k ≤ 10 → 5 ≤ q → q ≤ 30 →
      (∀ i : Fin Config.laneCount, -32768 * 2 ^ k ≤ lanes[i] ∧ lanes[i] ≤ 32767 * 2 ^ k) →
      (∀ i : Fin Config.laneCount, -32768 ≤ laneAverage k lanes[i] ∧ laneAverage k lanes[i] ≤ 32767 ∧
        2 ^ k * laneAverage k lanes[i] ≤ lanes[i] + 2 ^ (k - 1) ∧ lanes[i] + 2 ^ (k - 1) < 2 ^ k * (laneAverage k lanes[i] + 1)) ∧
      0 ≤ level k q lanes ∧ level k q lanes ≤ 49152)

/-- The compensated end pressure is P2 times T1 over T2 rounded half up, below P2 never in a cooling housing and above it never in a
warming one (R144). -/
def Obligations.LeakPressureIsCompensated : Prop :=
  ∀ p2 t1 t2 : Int, 0 ≤ p2 → p2 ≤ 262140 → 23315 ≤ t1 → t1 ≤ 42315 → 23315 ≤ t2 → t2 ≤ 42315 →
    2 * t2 * compensated p2 t1 t2 ≤ 2 * (p2 * t1) + t2 ∧ 2 * (p2 * t1) + t2 < 2 * t2 * (compensated p2 t1 t2 + 1) ∧
    p2 * t1 < 12000000000 ∧ (t1 ≤ t2 → compensated p2 t1 t2 ≤ p2) ∧ (t2 ≤ t1 → p2 ≤ compensated p2 t1 t2)

/-- R145. -/
def Obligations.LeakRateIsBanded : Prop :=
  ∀ (dp v tm : Int) (notes : Notes), dp ≤ 262140 → 2000 ≤ v → v ≤ 40000 → 2 ≤ tm → tm ≤ 60 →
    (dp < 0 → leakRate dp v tm notes = (0, { notes with gain := true })) ∧
    (0 ≤ dp → ∃ q : Int, 2 * (101325 * tm) * q ≤ 2 * (dp * v * 6000) + 101325 * tm ∧
      2 * (dp * v * 6000) + 101325 * tm < 2 * (101325 * tm) * (q + 1) ∧
      q = (dp * v * 6000 + 101325 * tm / 2) / (101325 * tm) ∧ dp * v * 6000 < 63000000000000 ∧
      leakRate dp v tm notes = if 65535 < q then (65535, { notes with saturatedQ := true }) else (q, notes)) ∧
    0 ≤ (leakRate dp v tm notes).1 ∧ (leakRate dp v tm notes).1 ≤ 65535

/-- R46: the decrement of a countdown cell, its reload, and everything it leaves. -/
def Obligations.AuditDecrementReloads : Prop :=
  ∀ (st : PlanStore) (i : Nat), isCountdown i = true → 1 ≤ st.commonAt i → st.commonAt i ≤ 65535 →
    ((st.auditDecrement i).1 = true ↔ st.commonAt i = 1) ∧
    (st.commonAt i ≠ 1 → (st.auditDecrement i).2.commonAt i = st.commonAt i - 1) ∧
    (st.commonAt i = 1 → (st.auditDecrement i).2.commonAt i = clamp 1 65535 (st.commonAt (i - 8))) ∧
    1 ≤ (st.auditDecrement i).2.commonAt i ∧ (st.auditDecrement i).2.commonAt i ≤ 65535 ∧
    (∀ j, j ≠ i → (st.auditDecrement i).2.commonAt j = st.commonAt j) ∧
    (st.auditDecrement i).2.slots = st.slots ∧ (st.auditDecrement i).2.directory = st.directory ∧
    (st.auditDecrement i).2.variants = st.variants

/-! ## Drives -/

/-- One millisecond: cell time, the generator step toward target × 1000, one setpoint message with its check, the missed count, the
silence counts, a window emptied in the tick in which its count reaches 65,535, the loss and quiet timers, and the notice line that
follows its timer (R3, R73, R74, R76, R79, R100, R105, R165, R177, R178); the same in every order of the bays (log 3). The generator
step ends a RAMP step or turns it to TRACKING (R82), and makes a wind-down over, which ends ABORTING, and CLOSING with no reduction
pending (R68, R70, R71, R90). That the message before counts as missed by the enable in force when it is settled is log 6's, the mark
of a given DRIVE_LOST is log 8's, the bytes under the check are log 22's, that the tick runs no expiry row is log 2's, and that
SILENCE_PURGE and QUIET_TIMER_EXPIRY stand as rows of their own beside it is log 21's and log 20's. -/
def Obligations.MillisecondTickAdvancesEverything : Prop :=
  (∀ (x target : Int) (rate : Nat), (generatorMove x target rate - x).natAbs = min rate (target * 1000 - x).natAbs ∧
    (target * 1000 - generatorMove x target rate).natAbs + (generatorMove x target rate - x).natAbs = (target * 1000 - x).natAbs) ∧
  (∀ (b : BayId) (s : State), (s.record b).owner = .sequencer →
    let d := (s.bay b).drive
    let x := generatorMove d.x d.target d.rampRate
    let speed := d.latest.elim 0 (·.speed)
    let moved := mapDrive b (fun d => { d with x := x }) s
    let sent := mapDrive b DriveLink.messaged
    (∀ o : RampOps, (s.record b).phase = .ramping ∨ (s.record b).phase = .tracking → (s.record b).latched = some (.ramp o) →
      d.windDown = .none →
      (x = o.target * 1000 → (speed - o.target).natAbs ≤ o.tolerance →
        driveTick b s = sent (examineEnding b (endStep b moved))) ∧
      (x = o.target * 1000 → o.tolerance < (speed - o.target).natAbs → driveTick b s = sent (setPhase b .tracking moved)) ∧
      (x ≠ o.target * 1000 → driveTick b s = sent moved)) ∧
    (∀ t0 : Time, (s.record b).phase = .none → d.windDown = .inProgress t0 →
      (x ≠ 0 ∨ 5 < speed.natAbs → driveTick b s = sent moved) ∧
      (x = 0 → speed.natAbs ≤ 5 →
        ((s.record b).state = .aborting → ∃ t, driveTick b s = sent t ∧ FinishedWith b
          (if (s.record b).secondary = none ∧ ((s.record b).cause = some .lineWithdraw ∨ (s.record b).cause = some .cellAbort)
            then .aborted else .fault) (s.record b).cause (s.record b).secondary moved t) ∧
        ((s.record b).state = .closing → (s.record b).pendingReductions = 0 → ∃ t, driveTick b s = sent t ∧ FinishedWith b
          (match worstOf (s.record b).results with
            | .pass => .pass | .marginal => .marginal | .invalid => .incomplete | .fail => .fail)
          (s.record b).cause (s.record b).secondary moved t) ∧
        ((s.record b).state = .closing → (s.record b).pendingReductions ≠ 0 →
          driveTick b s = sent (mapDrive b (fun d => { d with windDown := .over }) moved))))) ∧
  ∀ (order : List BayId) (s : State),
    exec (.millisecondTick order) s = .next (portTick (sensorTick ((order ++ allBays).eraseDups.foldl (fun t b => driveTick b t)
      { s with cell := { s.cell with time := s.cell.time + 1 } }))) ∧
    ∃ t, exec (.millisecondTick order) s = .next t ∧ t.now = s.now + 1 ∧
    (∀ p, (t.port p).quietTimer = (s.port p).quietTimer - 1 ∧
      (t.port p).ntf = decide ((t.port p).notices ≠ [] ∧ (t.port p).quietTimer = 0)) ∧
    ((∀ b, (s.record b).phase ≠ .ramping ∧ (s.record b).phase ≠ .tracking ∧ (s.bay b).drive.windDown = .none) →
      t.store = s.store ∧ t.reports = s.reports ∧ t.reducer = s.reducer ∧ t.manifold = s.manifold ∧
      t.cell = { s.cell with time := s.cell.time + 1 } ∧
      (∀ p, t.port p = { s.port p with
        quietTimer := (s.port p).quietTimer - 1, ntf := decide ((s.port p).notices ≠ [] ∧ (s.port p).quietTimer ≤ 1) }) ∧
      ∀ b, t.bay b = { s.bay b with drive := (t.bay b).drive, sensor := (t.bay b).sensor }) ∧
    ∀ b, let d := (s.bay b).drive
      let d' := (t.bay b).drive
      d'.sent = some ⟨d.sequence, d'.enable, d'.x.tdiv 1000, d'.torqueLimit, crc ([d.sequence, if d'.enable then 1 else 0] ++
        bytesOfInt 2 (d'.x.tdiv 1000) ++ bytesOf 2 d'.torqueLimit)⟩ ∧ d'.awaited = some d.sequence ∧
      d'.sequence = d.sequence + 1 ∧ d'.reportAge = min 65535 (d.reportAge + 1) ∧ d'.latest = d.latest ∧
      (d'.x = generatorMove d.x d.target d.rampRate ∨ (t.record b).state = .finished ∧ d'.x = 0) ∧
      ((s.record b).phase ≠ .ramping → (s.record b).phase ≠ .tracking → d.windDown = .none →
        ((s.record b).owner ≠ .cell → d' =
          { d with
            x := generatorMove d.x d.target d.rampRate, sent := d'.sent, awaited := d'.awaited, sequence := d'.sequence,
            reportAge := d'.reportAge,
            missed := if d.awaited ≠ none ∧ d.enable = true then min 20 (d.missed + 1) else d.missed }) ∧
        ((s.record b).owner = .cell → (d'.enable = true ↔ d.jogTarget ≠ 0 ∨ d'.x ≠ 0) ∧ d' =
          { d with
            x := generatorMove d.x d.target d.rampRate, sent := d'.sent, awaited := d'.awaited, sequence := d'.sequence,
            reportAge := d'.reportAge, enable := d'.enable, lostGiven := d'.enable && d.lostGiven,
            missed := if d'.enable = false then 0 else if d.awaited ≠ none then min 20 (d.missed + 1) else d.missed })) ∧
      (let l := (s.bay b).sensor
      let p := min 65535 (l.pressureSilence + 1)
      let h := min 65535 (l.temperatureSilence + 1)
      ∃ w, (t.bay b).sensor =
        { l with
          pressure := if p = 65535 then [] else l.pressure, temperature := if h = 65535 then [] else l.temperature,
          pressureSilence := p, temperatureSilence := h, vibrationSilence := min 65535 (l.vibrationSilence + 1), lossWatch := w } ∧
        ((t.record b).state ≠ .finished → w = l.lossWatch.map fun v =>
          { v with pressureTimer := min 100 (v.pressureTimer + 1), temperatureTimer := min 1000 (v.temperatureTimer + 1) }))

/-- A report with a bad check or another echo than the awaited one changes nothing (R73, R74, R165); a taken report is the latest one,
and with no RAMP step it does nothing else (R74, R76, R77, R86), also during a wind-down that it does not end, or in a CLOSING whose
wind-down is over and whose reductions are pending (R67, R90); a RAMP step ends when x stands at its target and the speed lies within
the tolerance, and otherwise tracks (R82). That a message takes one report is log 5's choice, the order within a report log 7's, the
bytes under the check log 22's. -/
def Obligations.DriveReportIsTaken : Prop :=
  ∀ (b : BayId) (echo : Byte) (st : DriveState) (speed torque check : BitVec 16) (s : State),
    let d := (s.bay b).drive
    let good := crc ([echo, BitVec.ofNat 8 (driveStateCode st)] ++ bytesOf 2 speed.toNat ++ bytesOf 2 torque.toNat)
    let rep : DriveReport := ⟨st, speed.toInt, torque.toInt⟩
    (check ≠ good ∨ d.awaited ≠ some echo → exec (.driveReport b echo st speed torque check) s = .next s) ∧
    (check = good → d.awaited = some echo → (st = .fault → d.faultSeen = true) →
      ((s.record b).phase ≠ .ramping → (s.record b).phase ≠ .tracking →
        d.windDown = .none ∨ (∃ t0, d.windDown = .inProgress t0) ∧ (d.x ≠ 0 ∨ 5 < speed.toInt.natAbs) ∨
          d.windDown = .over ∧ (s.record b).state = .closing ∧ (s.record b).pendingReductions ≠ 0 →
        exec (.driveReport b echo st speed torque check) s = .next (mapDrive b (DriveLink.reported rep) s)) ∧
      ∀ o : RampOps, (s.record b).phase = .ramping ∨ (s.record b).phase = .tracking → (s.record b).latched = some (.ramp o) →
        d.windDown = .none →
        (d.x = o.target * 1000 → (speed.toInt - o.target).natAbs ≤ o.tolerance →
          exec (.driveReport b echo st speed torque check) s =
            .next (examineEnding b (endStep b (mapDrive b (DriveLink.reported rep) s)))) ∧
        (d.x = o.target * 1000 → o.tolerance < (speed.toInt - o.target).natAbs →
          exec (.driveReport b echo st speed torque check) s =
            .next (setPhase b .tracking (mapDrive b (DriveLink.reported rep) s))) ∧
        (d.x ≠ o.target * 1000 → exec (.driveReport b echo st speed torque check) s = .next (mapDrive b (DriveLink.reported rep) s)))

/-- In manual, DRIVE_LOST, a FAULT report and the fall of GRD stop the jog, and so does JOG with speed 0, whatever the guard; the two
drive events raise FAULT (R22, R78, R92, R93). With x at 0 enable falls in the event of the stop itself, which is log 9's reading of
R75; the payload of the answer to JOG with speed 0 is log 35's. -/
def Obligations.ManualEventsStopJog : Prop :=
  ∀ (b : BayId) (s : State), (s.record b).owner = .cell →
    ((s.bay b).drive.enable = true → (s.bay b).drive.missed = 20 → (s.bay b).drive.lostGiven = false →
      exec (.driveLost b) s = .next (raise (.fault b)
        (mapDrive b (fun d => { d with lostGiven := true }.jogStopped s.cell.stopRamp) s))) ∧
    (∀ (echo : Byte) (speed torque : BitVec 16), (s.bay b).drive.awaited = some echo → (s.bay b).drive.faultSeen = false →
      (s.record b).phase = .none → (s.bay b).drive.windDown = .none →
      exec (.driveReport b echo .fault speed torque (reportCheck echo .fault speed torque)) s = .next (raise (.fault b)
        (mapDrive b (fun d => (d.reported ⟨.fault, speed.toInt, torque.toInt⟩).jogStopped s.cell.stopRamp) s))) ∧
    ((s.record b).inputs.grd = true → (s.record b).state = .empty ∨ (s.record b).state = .loaded →
      exec (.inputLineChange b .grd false) s = .next
        (mapDrive b (DriveLink.jogStopped s.cell.stopRamp)
          (mapRecord b (fun r => { r with inputs := { r.inputs with grd := false } }) s))) ∧
    (∀ n, bayOfCode n = some b → exec (.jog .cell n 0) s = .next
      (answered .cell (.jog .cell n 0) .ok [0, 0] (mapDrive b (DriveLink.jogStopped s.cell.stopRamp) s)))

/-! ## Faults, aborts and the way to FINISHED -/

/-- Every fault event and both command causes take a bay of RUNNING, HELD or CLOSING into ABORTING with the cause the manual names, and
on into FINISHED in the same event when its drive is at rest or its wind-down is over already (R13, R18 to R20, R22, R70, R76, R78, R83,
R89, R90, R106, R118, R123, R124, R134, R148, R150). An expiry or loss that is not due does nothing. That an expiry row acts at or after
its limit is log 2's choice, that the fault check of a report comes before its other readers log 7's, and the bytes under a report's
check are log 22's. -/
def Obligations.FaultsAndAbortsEnterAborting : Prop :=
  (∀ (b : BayId) (s : State), ReducerOk s → StepsOk s → DrivesOk s → (s.record b).state.abortable →
    ((s.bay b).drive.missed = 20 → (s.bay b).drive.lostGiven = false →
      ∃ t, exec (.driveLost b) s = .next t ∧ AbortTaken b .driveLost (mapDrive b (fun d => { d with lostGiven := true }) s) t) ∧
    (∀ (echo : Byte) (speed torque : BitVec 16), (s.bay b).drive.awaited = some echo → (s.bay b).drive.faultSeen = false →
      ∃ t, exec (.driveReport b echo .fault speed torque (reportCheck echo .fault speed torque)) s = .next t ∧
        AbortTaken b .driveFault (mapDrive b (DriveLink.reported ⟨.fault, speed.toInt, torque.toInt⟩) s) t) ∧
    (∀ (o : RampOps) (t0 : Time), (s.record b).phase = .ramping ∨ (s.record b).phase = .tracking →
      (s.record b).latched = some (.ramp o) → (s.record b).stepStart = some t0 → o.timeout ≤ elapsed s.now t0 →
      ∃ t, exec (.rampTimeout b) s = .next t ∧ AbortTaken b .driveTrack s t) ∧
    (∀ t0 : Time, (s.record b).state = .held → (s.record b).holdStart = some t0 → 600000 ≤ elapsed s.now t0 →
      ∃ t, exec (.holdExpired b) s = .next t ∧ AbortTaken b .holdExpired s t) ∧
    (∀ w : LossWatch, (s.bay b).sensor.lossWatch = some w → w.mark = false →
      let marked := mapSensor b (fun l => { l with lossWatch := some { w with mark := true } }) s
      (w.pressureTimer = 100 → ∃ t, exec (.pressureLoss b) s = .next t ∧ AbortTaken b .sensorLost marked t) ∧
      (w.temperatureTimer = 1000 → ∃ t, exec (.temperatureLoss b) s = .next t ∧ AbortTaken b .sensorLost marked t)) ∧
    (∀ t0 : Time, (s.bay b).leak.phase = .vent → (s.bay b).leak.phaseStart = some t0 → 10000 ≤ elapsed s.now t0 →
      ∃ t, exec (.ventLimitExpiry b) s = .next t ∧ AbortTaken b .ventBlocked s t) ∧
    (∀ l : InputLine, (s.record b).inputs.get l = true →
      ∃ t, exec (.inputLineChange b l false) s = .next t ∧ (l = .pres → Offered (.presence b) t) ∧
        AbortTaken b (match l with | .pres => .axleLost | .clmp => .clampLost | .cpld => .clampLost | .grd => .guardOpen)
          (mapRecord b (fun r => { r with inputs := r.inputs.set l false }) s) t) ∧
    (∀ n, bayOfCode n = some b →
      (∃ u, exec (.withdraw .line n) s = .next (answered .line (.withdraw .line n) .ok [] u) ∧ AbortTaken b .lineWithdraw s u) ∧
      (∃ u, exec (.abort .cell n) s = .next (answered .cell (.abort .cell n) .ok [] u) ∧ AbortTaken b .cellAbort s u))) ∧
  (∀ (b : BayId) (s : State),
    ((s.bay b).drive.enable = false ∨ (s.bay b).drive.missed ≠ 20 ∨ (s.bay b).drive.lostGiven = true →
      exec (.driveLost b) s = .next s) ∧
    ((s.record b).phase ≠ .ramping → (s.record b).phase ≠ .tracking → exec (.rampTimeout b) s = .next s) ∧
    (∀ (o : RampOps) (t0 : Time), (s.record b).latched = some (.ramp o) → (s.record b).stepStart = some t0 →
      elapsed s.now t0 < o.timeout → exec (.rampTimeout b) s = .next s) ∧
    ((s.bay b).sensor.lossWatch = none → exec (.pressureLoss b) s = .next s ∧ exec (.temperatureLoss b) s = .next s) ∧
    (∀ w : LossWatch, (s.bay b).sensor.lossWatch = some w →
      (w.mark = true ∨ w.pressureTimer ≠ 100 → exec (.pressureLoss b) s = .next s) ∧
      (w.mark = true ∨ w.temperatureTimer ≠ 1000 → exec (.temperatureLoss b) s = .next s)) ∧
    ((s.bay b).leak.phase ≠ .vent → exec (.ventLimitExpiry b) s = .next s) ∧
    (∀ t0 : Time, (s.bay b).leak.phaseStart = some t0 → elapsed s.now t0 < 10000 → exec (.ventLimitExpiry b) s = .next s) ∧
    (∀ n, bayOfCode n = some b → ¬(s.record b).state.abortable → (s.record b).state ≠ .aborting →
      exec (.abort .cell n) s = .next (answered .cell (.abort .cell n) .wrongState [] s)))

/-- In ABORTING the first fault is recorded, later ones change nothing, and WITHDRAW and ABORT are accepted with no change (R13, R19,
R21, R78, R106); only the fall of PRES raises a notice (R22). A FAULT report is read by the wind-down after its fault is recorded (R74,
R90; the order is log 7's), and with owner LINE a first FAULT report sets the mark only (R78). -/
def Obligations.AbortingRecordsFirstFault : Prop :=
  (∀ (b : BayId) (s : State), (s.record b).state = .aborting → (s.record b).owner = .sequencer →
    let note := fun (c : Cause) (r : BayRecord) => { r with secondary := some (r.secondary.getD c) }
    ((s.bay b).drive.enable = true → (s.bay b).drive.missed = 20 → (s.bay b).drive.lostGiven = false →
      exec (.driveLost b) s = .next (mapRecord b (note .driveLost) (mapDrive b (fun d => { d with lostGiven := true }) s))) ∧
    (∀ (echo : Byte) (speed torque : BitVec 16) (t0 : Time), (s.bay b).drive.awaited = some echo →
      (s.bay b).drive.faultSeen = false → (s.record b).phase = .none → (s.bay b).drive.windDown = .inProgress t0 →
      let i := Instr.driveReport b echo .fault speed torque (reportCheck echo .fault speed torque)
      let u := mapRecord b (note .driveFault) (mapDrive b (DriveLink.reported ⟨.fault, speed.toInt, torque.toInt⟩) s)
      ((s.bay b).drive.x ≠ 0 ∨ 5 < speed.toInt.natAbs → exec i s = .next u) ∧
      ((s.bay b).drive.x = 0 → speed.toInt.natAbs ≤ 5 → ∃ t, exec i s = .next t ∧
        FinishedWith b .fault (s.record b).cause (some ((s.record b).secondary.getD .driveFault)) u t)) ∧
    (∀ w : LossWatch, (s.bay b).sensor.lossWatch = some w → w.mark = false →
      let u := mapRecord b (note .sensorLost) (mapSensor b (fun l => { l with lossWatch := some { w with mark := true } }) s)
      (w.pressureTimer = 100 → exec (.pressureLoss b) s = .next u) ∧
      (w.temperatureTimer = 1000 → exec (.temperatureLoss b) s = .next u)) ∧
    (∀ l : InputLine, l ≠ .pres → (s.record b).inputs.get l = true →
      exec (.inputLineChange b l false) s = .next (mapRecord b
        (fun r => note (if l = .grd then .guardOpen else .clampLost) { r with inputs := r.inputs.set l false }) s)) ∧
    ((s.record b).inputs.pres = true →
      exec (.inputLineChange b .pres false) s = .next (mapRecord b (note .axleLost) (raise (.presence b)
        (mapRecord b (fun r => { r with inputs := { r.inputs with pres := false } }) s)))) ∧
    (∀ n, bayOfCode n = some b →
      exec (.withdraw .line n) s = .next (answered .line (.withdraw .line n) .ok [] s) ∧
      exec (.abort .cell n) s = .next (answered .cell (.abort .cell n) .ok [] s))) ∧
  ∀ (b : BayId) (echo : Byte) (speed torque : BitVec 16) (s : State), (s.record b).owner = .line → (s.record b).phase = .none →
    (s.bay b).drive.windDown = .none → (s.bay b).drive.awaited = some echo → (s.bay b).drive.faultSeen = false →
    exec (.driveReport b echo .fault speed torque (reportCheck echo .fault speed torque)) s =
      .next (mapDrive b (DriveLink.reported ⟨.fault, speed.toInt, torque.toInt⟩) s)

/-- The wind-down is over when x is 0 and the latest report shows 5 rpm or less: ABORTING then ends in FINISHED, and CLOSING once no
reduction is pending (R67, R68, R70, R71, R90, R151, R152). A wind-down of 10,000 ms ends both with verdict FAULT: DRIVE_STUCK is the
cause out of CLOSING, which also gives up its reductions, and the secondary fault out of ABORTING unless one stands (R69, R70, R91).
That the record's cause field takes DRIVE_STUCK is log 30's reading, that the row does nothing before 10,000 ms and acts at or after it
log 2's choice. The wind-down that a generator step ends is stated in MillisecondTickAdvancesEverything, a report that does not end it,
or finds it over, in DriveReportIsTaken. -/
def Obligations.WindDownEndsInFinished : Prop :=
  (∀ (b : BayId) (echo : Byte) (st : DriveState) (speed torque : BitVec 16) (s : State) (t0 : Time),
    (s.bay b).drive.awaited = some echo → (st = .fault → (s.bay b).drive.faultSeen = true) → (s.record b).phase = .none →
    (s.bay b).drive.windDown = .inProgress t0 → (s.bay b).drive.x = 0 → speed.toInt.natAbs ≤ 5 →
    let rep : DriveReport := ⟨st, speed.toInt, torque.toInt⟩
    ((s.record b).state = .aborting → ∃ t, exec (.driveReport b echo st speed torque (reportCheck echo st speed torque)) s = .next t ∧
      FinishedWith b
        (if (s.record b).secondary = none ∧ ((s.record b).cause = some .lineWithdraw ∨ (s.record b).cause = some .cellAbort)
          then .aborted else .fault) (s.record b).cause (s.record b).secondary (mapDrive b (DriveLink.reported rep) s) t) ∧
    ((s.record b).state = .closing → (s.record b).pendingReductions = 0 →
      ∃ t, exec (.driveReport b echo st speed torque (reportCheck echo st speed torque)) s = .next t ∧
        FinishedWith b (match worstOf (s.record b).results with
          | .pass => .pass | .marginal => .marginal | .invalid => .incomplete | .fail => .fail)
          (s.record b).cause (s.record b).secondary (mapDrive b (DriveLink.reported rep) s) t) ∧
    ((s.record b).state = .closing → (s.record b).pendingReductions ≠ 0 →
      exec (.driveReport b echo st speed torque (reportCheck echo st speed torque)) s =
        .next (mapDrive b (fun d => { d.reported rep with windDown := .over }) s))) ∧
  (∀ (b : BayId) (s : State) (t0 : Time), (s.bay b).drive.windDown = .inProgress t0 →
    (elapsed s.now t0 < 10000 → exec (.windDownExpiry b) s = .next s) ∧
    (10000 ≤ elapsed s.now t0 →
      ((s.record b).state = .aborting → ∃ t, exec (.windDownExpiry b) s = .next t ∧
        FinishedWith b .fault (s.record b).cause (some ((s.record b).secondary.getD .driveStuck)) s t) ∧
      ((s.record b).state = .closing → ∃ t, exec (.windDownExpiry b) s = .next t ∧
        FinishedWith b .fault (some .driveStuck) (s.record b).secondary s t ∧
        ∀ k, (t.buf b k).state ≠ .queued ∧ ((t.buf b k).state = .reducing → (t.buf b k).discard = true))))

/-- R18: the hold limit of 600,000 ms from the hold start. That the row does nothing before its limit or outside HELD, and acts at or
after it, is log 2's choice. -/
def Obligations.HoldLimitRunsFromHoldStart : Prop :=
  (∀ (b : BayId) (s : State) (t0 : Time), (s.record b).state = .held → (s.record b).holdStart = some t0 →
    (elapsed s.now t0 < 600000 → exec (.holdExpired b) s = .next s) ∧
    (600000 ≤ elapsed s.now t0 → ∃ t, exec (.holdExpired b) s = .next t ∧ (t.record b).cause = some .holdExpired ∧
      ((t.record b).state = .aborting ∨ (t.record b).state = .finished))) ∧
  (∀ (b : BayId) (s : State), (s.record b).state ≠ .held → exec (.holdExpired b) s = .next s) ∧
  (∀ (i : Instr) (b : BayId) (s t : State), exec i s = .next t → (s.record b).state ≠ .held → (t.record b).state = .held →
    (t.record b).holdStart = some t.now)

/-! ## Dwells -/

/-- Banding (R63); at its duration a DWELL posts the torque result, then the temperature result, and comes to its boundary; a check with
the pair 0 and 0 posts none (R61, R62, R85 to R88). That DWELL_END does nothing before its duration and acts at or after it is log 2's
choice. -/
def Obligations.DwellEndPostsTorqueThenTemperature : Prop :=
  (∀ x pass fail : Int, pass ≤ fail → (band x pass fail = .pass ↔ x ≤ pass) ∧ (band x pass fail = .marginal ↔ pass < x ∧ x ≤ fail) ∧
    (band x pass fail = .fail ↔ fail < x)) ∧
  ∀ (b : BayId) (s : State) (o : DwellOps) (t0 : Time) (acc : DwellAccumulator),
    (s.record b).phase = .dwelling → (s.record b).state = .running → (s.record b).latched = some (.dwell o) →
    (s.record b).stepStart = some t0 → (s.bay b).drive.dwell = some acc ∨ acc = ⟨0, 0, 0⟩ ∧ (s.bay b).drive.dwell = none →
    (elapsed s.now t0 < o.duration → exec (.dwellEnd b) s = .next s) ∧
    (o.duration ≤ elapsed s.now t0 → ∃ torque rise : List Result,
      exec (.dwellEnd b) s = .next (endStep b (mapDrive b (fun d => { d with dwell := none }) (posted b (torque ++ rise) s))) ∧
      (o.torquePass = 0 ∧ o.torqueFail = 0 → torque = []) ∧ (o.risePass = 0 ∧ o.riseFail = 0 → rise = []) ∧
      (¬(o.torquePass = 0 ∧ o.torqueFail = 0) →
        (acc.count = 0 → torque = [stepResult s b .dwell .torque .invalid (some .noData) 0 0 Notes.none]) ∧
        (acc.count ≠ 0 → ∃ m : Int, 2 * acc.count * m ≤ 2 * acc.sum + acc.count ∧ 2 * acc.sum + acc.count < 2 * acc.count * (m + 1) ∧
          torque = [stepResult s b .dwell .torque (band m o.torquePass o.torqueFail) none m acc.peak Notes.none])) ∧
      (¬(o.risePass = 0 ∧ o.riseFail = 0) →
        (∀ T0 T1 : Int, (s.record b).startTemperature = some T0 → (s.bay b).sensor.temperatureSince s.now t0 = some T1 →
          rise = [stepResult s b .dwell .temperature (band (T1 - T0) o.risePass o.riseFail) none (T1 - T0) T1 Notes.none]) ∧
        ((s.record b).startTemperature = none ∨ (s.bay b).sensor.temperatureSince s.now t0 = none →
          rise = [stepResult s b .dwell .temperature .invalid (some .sensorShort) 0 0 Notes.none])))

/-! ## Sensor Links -/

/-- A PRESSURE or TEMPERATURE word joins its window, which keeps 16 samples, clears its silence count and loss timer, and lets the loss
mark go when no timer stands at its limit (R94, R96, R97, R106); outside AMBIENT, FILL and VENT a pressure sample does nothing else
(R135). A word with tag 00 and a broken word raise the framing error count, which stops at 65,535 (R95); a channel silent for 65,535 ms
loses its window (R100); that these come as events of their own is log 21's. -/
def Obligations.SampleWordsFillWindows : Prop :=
  (∀ (b : BayId) (payload : BitVec 22) (s : State),
    let low := payload.extractLsb' 0 16
    ((s.bay b).leak.phase ≠ .ambient → (s.bay b).leak.phase ≠ .fill → (s.bay b).leak.phase ≠ .vent →
      exec (.pressureWord b payload) s = .next (mapSensor b (fun l =>
        { l with
          pressure := (l.pressure ++ [(⟨low.toNat, s.now⟩ : Sample)]).drop (l.pressure.length - 15), pressureSilence := 0,
          lossWatch := l.lossWatch.map fun w =>
            { w with pressureTimer := 0, mark := w.mark && decide (1000 ≤ w.temperatureTimer) } }) s)) ∧
    exec (.temperatureWord b payload) s = .next (mapSensor b (fun l =>
      { l with
        temperature := (l.temperature ++ [(⟨max (-4000) (min 15000 low.toInt), s.now⟩ : Sample)]).drop (l.temperature.length - 15),
        temperatureSilence := 0,
        lossWatch := l.lossWatch.map fun w =>
          { w with temperatureTimer := 0, mark := w.mark && decide (100 ≤ w.pressureTimer) } }) s)) ∧
  (∀ (b : BayId) (payload : BitVec 22) (s : State),
    let count := fun l : SensorLink => { l with framingErrors := if l.framingErrors < 65535 then l.framingErrors + 1 else 65535 }
    exec (.foreignTagWord b payload) s = .next (mapSensor b count s) ∧ exec (.wordBreak b) s = .next (mapSensor b count s) ∧
    (∀ word : BitVec 24, word.extractLsb' 22 2 = 0#2 → sampleWord b word = .foreignTagWord b (word.extractLsb' 0 22)) ∧
    ((s.bay b).sensor.pressureSilence = 65535 →
      exec (.silencePurge b .pressure) s = .next (mapSensor b (fun l => { l with pressure := [] }) s)) ∧
    ((s.bay b).sensor.temperatureSilence = 65535 →
      exec (.silencePurge b .temperature) s = .next (mapSensor b (fun l => { l with temperature := [] }) s)) ∧
    ((s.bay b).sensor.pressureSilence < 65535 → exec (.silencePurge b .pressure) s = .next s) ∧
    ((s.bay b).sensor.temperatureSilence < 65535 → exec (.silencePurge b .temperature) s = .next s))

/-! ## The noise check -/

/-- R98: a word is justified with the bay's width at the moment it is taken, from the two's-complement value of its low w bits, and is
staged so. -/
def Obligations.VibrationWordsAreJustified : Prop :=
  (∀ (w : Nat) (value : BitVec 16), 12 ≤ w → w ≤ 16 → ∃ v : Int,
    -2 ^ (w - 1) ≤ v ∧ v < 2 ^ (w - 1) ∧ (v - value.toNat) % 2 ^ w = 0 ∧ justify w value = v * 2 ^ (16 - w) ∧
    -32768 ≤ justify w value ∧ justify w value ≤ 32767) ∧
  ∀ (b : BayId) (payload : BitVec 22) (s : State), ∃ t, exec (.vibrationWord b payload) s = .next t ∧
    (t.bay b).sensor.vibration = some ⟨(payload.extractLsb' 16 6).toNat,
      justify (s.bay b).config.wordWidth (payload.extractLsb' 0 16), s.now⟩

/-- What a VIBRATION word does beside its staging (R99), by the row state: nothing with no buffer ACQUIRING, a row begins at lane 0,
each lane in turn joins the row, and a sample at another lane is a slip, which drops the row and begins a new one at lane 0 (R113,
R114). -/
def Obligations.VibrationWordAssemblesRow : Prop :=
  ∀ (b : BayId) (payload : BitVec 22) (s : State),
    let j := (payload.extractLsb' 16 6).toNat
    let v := justify (s.bay b).config.wordWidth (payload.extractLsb' 0 16)
    let lane := (j + 64 - (s.bay b).config.angleOffset) % 64
    let staged := mapSensor b (fun l => { l with vibration := some ⟨j, v, s.now⟩, vibrationSilence := 0 }) s
    (s.bay b).config.angleOffset ≤ 63 →
    ((s.bay b).noise.row = .idle ∨ (s.bay b).noise.find .acquiring = none → exec (.vibrationWord b payload) s = .next staged) ∧
    (∀ k, (s.bay b).noise.find .acquiring = some k →
      let begin := fun n : NoiseUnit => { n with row := .inRow 1, staging := [v] }
      ((s.bay b).noise.row = .hunting → exec (.vibrationWord b payload) s =
        .next (if lane = 0 then mapNoise b begin staged else staged)) ∧
      (∀ e, (s.bay b).noise.row = .inRow e → e ≤ 63 →
        (lane = e → e < 63 → exec (.vibrationWord b payload) s =
          .next (mapNoise b (fun n => { n with row := .inRow (e + 1), staging := n.staging ++ [v] }) staged)) ∧
        (∀ o, (s.buf b k).ops = some o → lane ≠ e → (s.buf b k).slips + 1 ≤ o.slipAllowance →
          exec (.vibrationWord b payload) s = .next (mapNoise b (fun n =>
            let dropped := { n.set k { n.get k with slips := (n.get k).slips + 1 } with row := .hunting, staging := [] }
            if lane = 0 then begin dropped else dropped) staged))))

/-- The sample of lane 63 adds the row, each sum clamped to 24 bits and a clamp marked (R115); below 2^k revolutions the next row is
hunted for; at 2^k the acquisition ends: QUEUED, one more reduction pending, or SATURATED with no reduction (R116, R119, R120). Past its
slip allowance it ends with SYNC (R114), at its timeout with TIMEOUT (R117). Every end frees the row and comes to the boundary. That
ACQUISITION_TIMEOUT does nothing before its limit and acts at or after it is log 2's choice. -/
def Obligations.AcquisitionEndsAsItsRowsGive : Prop :=
  ∀ (b : BayId) (k : BufId) (s : State) (o : ListenOps), (s.bay b).noise.find .acquiring = some k → (s.buf b k).ops = some o →
    4 ≤ o.exponent → o.exponent ≤ 10 → (s.record b).state = .running → (s.bay b).config.angleOffset ≤ 63 →
    let failed := fun (i : Instr) (cause : Cause) (x : ListenBuffer) (u : State) =>
      exec i s = .next (endStep b (posted b [stepResult s b .listen .noise .invalid (some cause) x.revolutions x.slips Notes.none]
        (mapNoise b (fun n =>
          { n.set k { x with state := .free, acquisitionStart := none, ops := none, slot := none, discard := false } with
            row := .idle, staging := [] }) u)))
    (∀ payload : BitVec 22,
      let j := (payload.extractLsb' 16 6).toNat
      let v := justify (s.bay b).config.wordWidth (payload.extractLsb' 0 16)
      let lane := (j + 64 - (s.bay b).config.angleOffset) % 64
      let staged := mapSensor b (fun l => { l with vibration := some ⟨j, v, s.now⟩, vibrationSilence := 0 }) s
      ((s.bay b).noise.row = .inRow 63 → (s.bay b).noise.staging.length = 63 → lane = 63 →
        let row := (s.bay b).noise.staging ++ [v]
        let added : ListenBuffer :=
          { s.buf b k with
            lanes := Vector.ofFn fun i => max (-8388608) (min 8388607 ((s.buf b k).lanes[i] + row.getD i.val 0)),
            revolutions := (s.buf b k).revolutions + 1,
            saturated := (s.buf b k).saturated || decide (∃ i : Fin 64,
              (s.buf b k).lanes[i] + row.getD i.val 0 < -8388608 ∨ 8388607 < (s.buf b k).lanes[i] + row.getD i.val 0) }
        let full := fun st : BufState => mapRecord b (fun r => { r with pendingReductions := r.pendingReductions + 1 })
          (mapNoise b (fun n =>
            { n.set k { added with state := st, acquisitionStart := none } with row := .idle, staging := [] }) staged)
        (added.revolutions < 2 ^ o.exponent.toNat → exec (.vibrationWord b payload) s =
          .next (mapNoise b (fun n => { n.set k added with row := .hunting, staging := [] }) staged)) ∧
        (2 ^ o.exponent.toNat ≤ added.revolutions → added.saturated = true →
          failed (.vibrationWord b payload) .saturated added staged) ∧
        (2 ^ o.exponent.toNat ≤ added.revolutions → added.saturated = false →
          (s.reducer.engine ≠ none → exec (.vibrationWord b payload) s = .next (endStep b
            { full .queued with reducer := { s.reducer with queue := s.reducer.queue ++ [(b, k)] } })) ∧
          (s.reducer = ⟨[], none⟩ → exec (.vibrationWord b payload) s = .next (endStep b
            { full .reducing with reducer := ⟨[], some ⟨b, k, s.now⟩⟩ })))) ∧
      (∀ e, (s.bay b).noise.row = .inRow e → e ≤ 63 → lane ≠ e → o.slipAllowance < (s.buf b k).slips + 1 →
        failed (.vibrationWord b payload) .sync { s.buf b k with slips := (s.buf b k).slips + 1 } staged)) ∧
    (∀ t0 : Time, (s.buf b k).acquisitionStart = some t0 →
      (elapsed s.now t0 < o.timeout → exec (.acquisitionTimeout b) s = .next s) ∧
      (o.timeout ≤ elapsed s.now t0 → failed (.acquisitionTimeout b) .timeout (s.buf b k) s))

/-- After 2 ms the reduction completes: unless it is discarded its result, with both net levels and the worse of their bands, is posted
to a bay in RUNNING, HELD or CLOSING; the buffer is FREE, the pending count one lower, and the engine takes the next entry or is IDLE
(R62, R121, R122, R124, R129). A bay that waits for the count or the buffer goes on in the same event: CLOSING ends (R67, R68),
ENTRY_WAIT comes to its boundary (R58), BUFFER_WAIT makes its speed check (R111); that the engine takes its next entry after the bay has
gone on is log 31's. That REDUCTION_COMPLETE does nothing before 2 ms and acts at or after it is log 2's choice. -/
def Obligations.ReductionPostsNoiseResult : Prop :=
  (∀ v : State, (v.reducer.engine ≠ none ∨ v.reducer.queue = [] → engineTake v = v) ∧
    ∀ c k rest, v.reducer.engine = none → v.reducer.queue = (c, k) :: rest → engineTake v =
      { mapBuf c k (fun x => { x with state := .reducing }) v with reducer := ⟨rest, some ⟨c, k, v.now⟩⟩ }) ∧
  (∀ s : State, s.reducer.engine = none → exec .reductionComplete s = .next s) ∧
  ∀ (s : State) (j : EngineJob) (o : ListenOps), s.reducer.engine = some j → (s.buf j.bay j.buf).ops = some o →
    (elapsed s.now j.start < 2 → exec .reductionComplete s = .next s) ∧
    (2 ≤ elapsed s.now j.start →
      let b := j.bay
      let x := s.buf b j.buf
      let m := max 0 (level o.exponent.toNat o.order.toNat x.lanes - o.baseM)
      let m2 := max 0 (level o.exponent.toNat (2 * o.order.toNat) x.lanes - o.base2M)
      let result : Result :=
        { slot := x.slot.getD 0, kind := .listen, check := .noise,
          verdict := worse (band m o.passM o.failM) (band m2 o.pass2M o.fail2M), cause := none, value1 := m, value2 := m2,
          notes := Notes.none, completion := s.now }
      let freed := fun v : State =>
        { mapRecord b (fun r => { r with pendingReductions := r.pendingReductions - 1 })
            (mapBuf b j.buf (fun x =>
              { x with state := .free, acquisitionStart := none, ops := none, slot := none, discard := false }) v) with
          reducer := ⟨s.reducer.queue, none⟩ }
      let u := freed (if x.discard then s else posted b [result] s)
      let ends := fun v : State => exec .reductionComplete s = .next (engineTake v)
      ((s.record b).state ≠ .running → (s.record b).state ≠ .held → (s.record b).state ≠ .closing → ends (freed s)) ∧
      ((s.record b).state = .held → ends u) ∧
      ((s.record b).state = .running → (s.record b).phase ≠ .bufferWait → (s.record b).phase ≠ .entryWait →
        ends u ∧ (s.reducer.queue = [] → exec .reductionComplete s = .next u)) ∧
      ((s.record b).state = .running → (s.record b).phase = .entryWait →
        ((u.record b).endRequest = true ∨ (u.record b).pendingReductions = 0 →
          ∀ k, (s.record b).slot = some k → ends (boundary b k u)) ∧
        ((u.record b).endRequest = false → (u.record b).pendingReductions ≠ 0 → ends u)) ∧
      (∀ o' : ListenOps, (s.record b).state = .running → (s.record b).phase = .bufferWait → (s.record b).latched = some (.listen o') →
        ((startListen b o' u).1 = true → ends (endStep b (startListen b o' u).2)) ∧
        ((startListen b o' u).1 = false → ends (startListen b o' u).2)) ∧
      ((s.record b).state = .closing →
        ((s.bay b).drive.windDown = .over → (u.record b).pendingReductions = 0 → ∃ t, ends t ∧
          FinishedWith b (match worstOf (u.record b).results with
            | .pass => .pass | .marginal => .marginal | .invalid => .incomplete | .fail => .fail)
            (s.record b).cause (s.record b).secondary u t) ∧
        ((s.bay b).drive.windDown ≠ .over ∨ (u.record b).pendingReductions ≠ 0 → ends u)))

/-! ## The leak test -/

/-- What a pressure sample does in AMBIENT, FILL and VENT: the first mean since the phase began is Pamb and asks for the manifold, the
first sample at Pamb + Pt ends the fill, into SETTLE or, with a settle time of 0, on into MEASURE with P1 and T1 or into VENT with
SENSOR_SHORT in the same event, and the first at Pamb + 500 Pa or below ends the step (R96, R131 to R133, R137 to R139, R141, R142,
R146, R147). The DRIVEN lines follow the phase, and the HELD ones stay (R25, R138). -/
def Obligations.PressureSamplesDriveLeakTest : Prop :=
  ∀ (b : BayId) (payload : BitVec 22) (s : State) (o : LeakOps) (t0 : Time),
    let word := payload.extractLsb' 0 16
    let p : Int := 4 * word.toNat
    let link := (s.bay b).sensor.takePressure s.now word
    let taken := mapSensor b (fun _ => link) s
    StepsOk s → (s.bay b).leak.ops = some o → (s.bay b).leak.phaseStart = some t0 →
    ((s.bay b).leak.phase = .ambient →
      (link.pressureSince s.now t0 = none → exec (.pressureWord b payload) s = .next taken) ∧
      (∀ pa, link.pressureSince s.now t0 = some pa →
        ∃ t, exec (.pressureWord b payload) s = .next t ∧ AmbientEnded b pa taken t)) ∧
    (∀ pa, (s.bay b).leak.ambient = some pa →
      let high := some (max p ((s.bay b).leak.highest.getD p))
      ((s.bay b).leak.phase = .fill → p < pa + o.pressure →
        exec (.pressureWord b payload) s = .next (mapLeak b (fun u => { u with highest := high }) taken)) ∧
      ((s.bay b).leak.phase = .fill → pa + o.pressure ≤ p → 0 < o.settleTime → ∃ t, exec (.pressureWord b payload) s = .next t ∧
        (t.bay b).leak = { (s.bay b).leak with phase := .settle, phaseStart := some s.now, startMeans := none, highest := high } ∧
        LeakMoved b taken t ∧ Unposted b s t ∧ ((s.record b).owner = .sequencer → LinesDriven b true false s t) ∧
        (t.record b).phase = .settle ∧ (t.record b).lines.fill = false ∧
        (s.manifold.queue = [] → t.manifold = ⟨none, []⟩) ∧
        (∀ c rest, s.manifold.queue = c :: rest → t.manifold = ⟨some c, rest⟩ ∧ (t.record c).lines.fill = true ∧
          (t.record c).phase = .fill ∧ (t.bay c).leak.phase = .fill ∧ (t.bay c).leak.phaseStart = some s.now)) ∧
      (∀ t1 : Time, (s.bay b).leak.phase = .fill → pa + o.pressure ≤ p → o.settleTime ≤ 0 → (s.record b).stepStart = some t1 →
        ∃ t, exec (.pressureWord b payload) s = .next t ∧ LeakMoved b taken t ∧ (t.record b).lines.fill = false ∧
          (s.manifold.queue = [] → t.manifold = ⟨none, []⟩) ∧
          (∀ c rest, s.manifold.queue = c :: rest → t.manifold = ⟨some c, rest⟩ ∧ (t.record c).lines.fill = true ∧
            (t.record c).phase = .fill ∧ (t.bay c).leak.phase = .fill ∧ (t.bay c).leak.phaseStart = some s.now) ∧
          (∀ p1 T1, link.pressureSince s.now t1 = some p1 → link.temperatureSince s.now t1 = some T1 →
            (t.record b).phase = .measure ∧ Unposted b s t ∧ ((s.record b).owner = .sequencer → LinesDriven b true false s t) ∧
            (t.bay b).leak = { (s.bay b).leak with
              phase := .measure, phaseStart := some s.now, startMeans := some (p1, T1), highest := high }) ∧
          (link.pressureSince s.now t1 = none ∨ link.temperatureSince s.now t1 = none →
            (t.record b).phase = .vent ∧ (t.bay b).leak = { (s.bay b).leak with
              phase := .vent, phaseStart := some s.now, startMeans := none, highest := high, posted := true } ∧
            LeakPosted b (stepResult s b .leak .leak .invalid (some .sensorShort) 0 0 (s.bay b).leak.notes) taken t ∧
            ((s.record b).owner = .sequencer → LinesDriven b true true s t))) ∧
      ((s.bay b).leak.phase = .vent → pa + 500 < p → exec (.pressureWord b payload) s = .next taken) ∧
      ((s.bay b).leak.phase = .vent → p ≤ pa + 500 → (s.record b).owner = .sequencer →
        ∃ u, exec (.pressureWord b payload) s = .next (endStep b u) ∧
          (u.bay b).leak = { LeakUnit.reset with highest := (s.bay b).leak.highest } ∧
          LeakMoved b taken u ∧ u.manifold = s.manifold ∧ Unposted b s u ∧ LinesDriven b false false s u ∧
          (u.record b).lines.fill = (s.record b).lines.fill))

/-- The fill limit ends a fill with GROSS_LEAK and frees the manifold (R133, R140); the settle time ends in MEASURE with P1 and T1, or
in SENSOR_SHORT (R141, R142). A result takes the unit into VENT, with VENT asserted where it is DRIVEN, and none is posted with the
result posted mark set (R25, R146, R147). That the rows do nothing before their limits and act at or after them is log 2's choice. -/
def Obligations.FillAndSettleEndAtTheirLimits : Prop :=
  ∀ (b : BayId) (s : State) (o : LeakOps) (t0 t1 : Time), StepsOk s → (s.bay b).leak.ops = some o → (s.bay b).leak.phaseStart = some t0 →
    (s.record b).state = .running → (s.record b).owner = .sequencer → (s.record b).stepStart = some t1 →
    let vented := fun (t : State) (r : Result) =>
      LeakMoved b s t ∧ LeakPosted b r s t ∧ (t.record b).phase = .vent ∧
      (t.bay b).leak = { (s.bay b).leak with phase := .vent, phaseStart := some s.now, startMeans := none, posted := true } ∧
      LinesDriven b true true s t
    ((s.bay b).leak.phase = .fill →
      (elapsed s.now t0 < o.fillLimit → exec (.fillLimitExpiry b) s = .next s) ∧
      (o.fillLimit ≤ elapsed s.now t0 → ∃ t, exec (.fillLimitExpiry b) s = .next t ∧
        vented t (stepResult s b .leak .leak .fail (some .grossLeak) 65535
          (match (s.bay b).leak.highest with | none => 0 | some h => h - (s.bay b).leak.ambient.getD 0) (s.bay b).leak.notes) ∧
        (t.record b).lines.fill = false ∧ t.manifold.granted = s.manifold.queue.head? ∧ t.manifold.queue = s.manifold.queue.tail)) ∧
    ((s.bay b).leak.phase = .settle →
      (elapsed s.now t0 < o.settleTime → exec (.settleEnd b) s = .next s) ∧
      (o.settleTime ≤ elapsed s.now t0 →
        (∀ p1 T1, (s.bay b).sensor.pressureSince s.now t1 = some p1 → (s.bay b).sensor.temperatureSince s.now t1 = some T1 →
          ∃ t, exec (.settleEnd b) s = .next t ∧ LeakMoved b s t ∧ t.manifold = s.manifold ∧ (t.record b).phase = .measure ∧
            Unposted b s t ∧ LinesDriven b true false s t ∧ (t.record b).lines.fill = (s.record b).lines.fill ∧
            (t.bay b).leak = { (s.bay b).leak with phase := .measure, phaseStart := some s.now, startMeans := some (p1, T1) }) ∧
        ((s.bay b).sensor.pressureSince s.now t1 = none ∨ (s.bay b).sensor.temperatureSince s.now t1 = none →
          ∃ t, exec (.settleEnd b) s = .next t ∧
            vented t (stepResult s b .leak .leak .invalid (some .sensorShort) 0 0 (s.bay b).leak.notes) ∧
            t.manifold = s.manifold ∧ (t.record b).lines.fill = (s.record b).lines.fill)))

/-- At the end of the measure time a stable housing is graded: Q against the pass and fail limits, FAIL when it saturates, with the
decay kept within 16 bits; an unstable one settles again while retries are left, with a settle time of 0 on into MEASURE in the same
event, and ends INVALID after them (R141 to R146). A result takes the unit into VENT, with VENT asserted where it is DRIVEN, and none is
posted with the result posted mark set (R25, R146, R147). That MEASURE_END does nothing before the measure time and acts at or after it
is log 2's choice; that SENSOR_SHORT at the end of the measure time carries the notes held so far is log 37's. -/
def Obligations.MeasureEndGradesLeak : Prop :=
  ∀ (b : BayId) (s : State) (o : LeakOps) (t0 : Time) (p1 T1 : Int), (s.bay b).leak.ops = some o → (s.bay b).leak.phase = .measure →
    (s.bay b).leak.phaseStart = some t0 → (s.bay b).leak.startMeans = some (p1, T1) → (s.record b).state = .running →
    2 ≤ o.measureTime →
    let unit := (s.bay b).leak
    let notes := unit.notes
    let vented := fun (r : Result) (retries : Nat) => ∃ t, exec (.measureEnd b) s = .next t ∧ LeakMoved b s t ∧ LeakPosted b r s t ∧
      t.manifold = s.manifold ∧ (t.record b).phase = .vent ∧ (t.bay b).leak = { unit with
        phase := .vent, phaseStart := some s.now, startMeans := none, posted := true, notes := r.notes, retryCount := retries } ∧
      (t.record b).lines.fill = (s.record b).lines.fill ∧ ((s.record b).owner = .sequencer → LinesDriven b true true s t)
    (elapsed s.now t0 < o.measureTime * 1000 → exec (.measureEnd b) s = .next s) ∧
    (o.measureTime * 1000 ≤ elapsed s.now t0 →
      ((s.bay b).sensor.pressureNow = none ∨ (s.bay b).sensor.temperatureNow = none →
        vented (stepResult s b .leak .leak .invalid (some .sensorShort) 0 0 notes) unit.retryCount) ∧
      (∀ p2 T2, (s.bay b).sensor.pressureNow = some p2 → (s.bay b).sensor.temperatureNow = some T2 →
        ((T2 - T1).natAbs ≤ o.deltaTMax →
          let dp := p1 - compensated p2 T1 T2
          let q := leakRate dp o.volume o.measureTime notes
          vented (stepResult s b .leak .leak (if q.2.saturatedQ then .fail else band q.1 o.passLimit o.failLimit) none q.1
            (max (-32768) (min 32767 dp)) q.2) unit.retryCount) ∧
        (o.deltaTMax < (T2 - T1).natAbs → o.retries ≤ unit.retryCount →
          vented (stepResult s b .leak .leak .invalid (some .unstable) (T2 - T1) unit.retryCount notes) unit.retryCount) ∧
        (o.deltaTMax < (T2 - T1).natAbs → unit.retryCount < o.retries →
          let measured := fun (ph : LeakPhase) (means : Option (Int × Int)) => ∃ t, exec (.measureEnd b) s = .next t ∧
            LeakMoved b s t ∧ t.manifold = s.manifold ∧ Unposted b s t ∧ (t.record b).phase = ph.step ∧
            (t.record b).lines.fill = (s.record b).lines.fill ∧ ((s.record b).owner = .sequencer → LinesDriven b true false s t) ∧
            (t.bay b).leak = { unit with
              phase := ph, phaseStart := some s.now, startMeans := means, retryCount := unit.retryCount + 1,
              notes := { notes with retried := true } }
          (0 < o.settleTime → measured .settle none) ∧
          (∀ t1 : Time, o.settleTime ≤ 0 → (s.record b).stepStart = some t1 →
            (∀ p1' T1', (s.bay b).sensor.pressureSince s.now t1 = some p1' → (s.bay b).sensor.temperatureSince s.now t1 = some T1' →
              measured .measure (some (p1', T1'))) ∧
            ((s.bay b).sensor.pressureSince s.now t1 = none ∨ (s.bay b).sensor.temperatureSince s.now t1 = none →
              vented (stepResult s b .leak .leak .invalid (some .sensorShort) 0 0 { notes with retried := true })
                (unit.retryCount + 1))))))

/-! ## Inputs -/

/-- An input change is recorded, PRES raises PRESENCE, and PRES falling in UNLOADING empties the bay (R15, R22); elsewhere outside test
and manual it does nothing else. A level that the input already has is log 26's. -/
def Obligations.InputChangesAreRecorded : Prop :=
  ∀ (b : BayId) (l : InputLine) (v : Bool) (s : State),
    let set := mapRecord b (fun r => { r with inputs := r.inputs.set l v }) s
    ((s.record b).inputs.get l = v → exec (.inputLineChange b l v) s = .next s) ∧
    ((s.record b).inputs.get l ≠ v →
      (v = true ∨ ((s.record b).state = .empty ∨ (s.record b).state = .loaded ∨ (s.record b).state = .finished) ∧
          (l ≠ .grd ∨ (s.record b).owner ≠ .cell) ∨ (s.record b).state = .unloading ∧ l ≠ .pres →
        exec (.inputLineChange b l v) s = .next (if l = .pres then raise (.presence b) set else set)) ∧
      (v = false → l = .pres → (s.record b).state = .unloading → ∃ t, exec (.inputLineChange b l v) s = .next t ∧
        t.bay b = { s.bay b with record := { BayRecord.reset with
          owner := (s.record b).owner, lines := (s.record b).lines, pendingReductions := (s.record b).pendingReductions,
          inputs := { (s.record b).inputs with pres := false } } } ∧
        t = { s with bays := t.bays, ports := t.ports } ∧ Offered (.presence b) t ∧ Offered (.bayState b) t))

/-! ## The exchange at a port -/

/-- What a port shifts out when SEL falls, by its state, and what it keeps (R164, R166, R168); NOTICE in an IDLE response is log 12's,
SEL falling within a transfer log 27's. -/
def Obligations.TransferStartShiftsOut : Prop :=
  ∀ (p : PortId) (s : State),
    let notice : Nat := if (s.port p).notices = [] then 0 else 1
    let cut : Nat := if (s.port p).cutMark = true then 2 else 0
    ((s.port p).state = .executing → exec (.transferStart p) s = .next (mapPort p (fun x =>
      { x with
        state := .inTransfer .notReady, received := [], receivedBits := 0, shiftedOut := withCheck [2, 0, BitVec.ofNat 8 notice, 0] }) s)) ∧
    ((s.port p).state = .quiet → (s.port p).response = none → exec (.transferStart p) s = .next (mapPort p (fun x =>
      { x with
        state := .inTransfer .idle, received := [], receivedBits := 0, cutMark := false,
        shiftedOut := withCheck [1, 0, BitVec.ofNat 8 (notice + cut), 0] }) s)) ∧
    (∀ r : Response, (s.port p).state = .quiet → (s.port p).response = some r → exec (.transferStart p) s = .next (mapPort p (fun x =>
      { x with
        state := .inTransfer (.response (6 + r.payload.length)), received := [], receivedBits := 0, cutMark := false, response := none,
        shiftedOut := withCheck ([BitVec.ofNat 8 (statusCode r.status), r.tag, BitVec.ofNat 8 ((if r.notice then 1 else 0) + cut),
          BitVec.ofNat 8 r.payload.length] ++ r.payload) }) s)) ∧
    (∀ k, (s.port p).state = .inTransfer k → exec (.transferStart p) s = .next s)

/-- When SEL rises the frame is examined in the order of R167 and dispatched (R168): a payload that is the layout of no command of its
code, by its length or by a coded value without a meaning, is BAD_ARGUMENT (R168, R170 to R172), with the audit cell byte of a WRITE
STEP disregarded unless the skip test is AUDIT (R172). A response not clocked out in full sets the cut mark, the bytes of a NOT_READY
transfer are discarded, and the master has read 00 for each byte beyond the response (R166). That the receive buffer is kept whole is
log 23's, that a refusal at dispatch waits like a request, with the NOTICE flag of this moment, log 11's, and SEL rising outside a
transfer log 27's. -/
def Obligations.RequestIsExaminedAndDispatched : Prop :=
  ∀ (p : PortId) (bytes : List Byte) (extra : Nat) (s : State),
    let read := (List.range bytes.length).map fun i => (s.port p).shiftedOut.getD i 0
    ((s.port p).state = .inTransfer .notReady → exec (.requestTaken p bytes extra) s = .next (mapPort p (fun x =>
      { x with
        received := [], receivedBits := 0, readOut := read,
        state := if (s.port p).request = none ∧ (s.port p).preparing = none then .quiet else .executing }) s)) ∧
    (∀ kind : TransferKind, kind ≠ .notReady → (s.port p).state = .inTransfer kind →
      let taken := fun (request : Option (Byte × Instr)) (preparing : Option Response) => mapPort p (fun x =>
        { x with
          state := .executing, received := bytes, receivedBits := extra, readOut := read, request := request, preparing := preparing,
          cutMark := match kind with
            | .response n => (s.port p).cutMark || decide (bytes.length * 8 + extra < n * 8)
            | _ => (s.port p).cutMark }) s
      let notice := decide ((s.port p).notices ≠ [])
      (extra ≠ 0 → exec (.requestTaken p bytes extra) s = .next (taken none (some ⟨.badFrame, 0, notice, [1]⟩))) ∧
      (extra = 0 → bytes.length < 3 →
        exec (.requestTaken p bytes extra) s = .next (taken none (some ⟨.badFrame, 0, notice, [2]⟩))) ∧
      (∀ code tag len rest, extra = 0 → bytes = code :: tag :: len :: rest →
        (56 < len.toNat ∨ rest.length < len.toNat + 2 →
          exec (.requestTaken p bytes extra) s = .next (taken none (some ⟨.badFrame, 0, notice, [2]⟩))) ∧
        (len.toNat ≤ 56 → len.toNat + 2 ≤ rest.length →
          let checked := code :: tag :: len :: rest.take (len.toNat + 2)
          (crc checked ≠ 0#16 → exec (.requestTaken p bytes extra) s = .next (taken none (some ⟨.badFrame, 0, notice, [3]⟩))) ∧
          (crc checked = 0#16 →
            (portsOf code.toNat = none →
              exec (.requestTaken p bytes extra) s = .next (taken none (some ⟨.unknownCommand, tag, notice, []⟩))) ∧
            (∀ ps, portsOf code.toNat = some ps → p ∉ ps →
              exec (.requestTaken p bytes extra) s = .next (taken none (some ⟨.wrongPort, tag, notice, []⟩))) ∧
            (∀ ps, portsOf code.toNat = some ps → p ∈ ps →
              let payload := rest.take len.toNat
              let layout := if code = 0x31#8 ∧ payload[3]? ≠ some 5#8 then payload.set 4 0 else payload
              let spells := fun cmd : Instr => cmd.wellFormed = true ∧ portOf cmd = some p ∧ codeOf cmd = some code.toNat ∧
                requestPayload cmd = layout
              ((∀ cmd, ¬spells cmd) →
                exec (.requestTaken p bytes extra) s = .next (taken none (some ⟨.badArgument, tag, notice, []⟩))) ∧
              (∀ cmd, spells cmd → exec (.requestTaken p bytes extra) s = .next (taken (some (tag, cmd)) none)))))) ∧
      (∀ (cmd : Instr) (tag : Byte) (tail : List Byte), extra = 0 → bytes = requestFrame tag cmd ++ tail → cmd.wellFormed = true →
        portOf cmd = some p → p ∈ carriedOn cmd →
        exec (.requestTaken p bytes extra) s = .next (taken (some (tag, cmd)) none))) ∧
    ((s.port p).state = .quiet ∨ (s.port p).state = .executing → exec (.requestTaken p bytes extra) s = .next s)

/-- The dispatched command is executed, its response carries the tag of its request, and becomes the pending response (R164, R166,
R168); a port in EXECUTING is then QUIET, and one in a NOT_READY transfer stays in it (R166). That the execution belongs to
RESPONSE_READY when no row of its own came first is log 11's choice, and that the NOTICE flag shows the pending set after the command's
own changes log 36's. -/
def Obligations.ResponseReadyAnswersRequest : Prop :=
  ∀ (p : PortId) (s : State),
    let ready := fun (r : Response) (st : PortState) (u : State) =>
      mapPort p (fun x => { x with preparing := none, response := some r, state := st }) u
    ((s.port p).request = none → (s.port p).preparing = none → exec (.responseReady p) s = .next s) ∧
    (∀ r, (s.port p).request = none → (s.port p).preparing = some r →
      ((s.port p).state = .executing → exec (.responseReady p) s = .next (ready r .quiet s)) ∧
      ((s.port p).state = .inTransfer .notReady → exec (.responseReady p) s = .next (ready r (.inTransfer .notReady) s))) ∧
    (∀ (tag : Byte) (cmd : Instr), (s.port p).request = some (tag, cmd) → portOf cmd = some p →
      ∃ u r, exec cmd s = .next u ∧ (u.port p).preparing = some r ∧ (u.port p).request = none ∧ r.tag = tag ∧
        (r.notice = true ↔ (u.port p).notices ≠ []) ∧
        ((s.port p).state = .executing → exec (.responseReady p) s = .next (ready r .quiet u)) ∧
        ((s.port p).state = .inTransfer .notReady → exec (.responseReady p) s = .next (ready r (.inTransfer .notReady) u)))

/-! ## Notices -/

/-- NEXT NOTICE removes the pair of highest priority and restarts the quiet timer when it empties the set; the line is released (R176 to
R178); SET NOTICE MASK drops masked pairs (R175); SET NOTICE INTERVAL clamps (R177); QUIET_TIMER_EXPIRY asserts the line when pairs are
pending (R178), at a timer still running it does nothing (log 20). The detail of an answer is the subject's state as it stands (R176).
That the NOTICE flag of the answers to NEXT NOTICE and SET NOTICE MASK shows the pending set after the removal is log 36's choice. -/
def Obligations.NoticeCommandsKeepTheSet : Prop :=
  ∀ (p : PortId) (s : State),
    ((s.port p).notices = [] → exec (.nextNotice p) s = .next (answered p (.nextNotice p) .ok [0, 255, 0, 0, 0, 0, 0] s)) ∧
    (∀ n, n ∈ (s.port p).notices → (s.port p).NoticesOk → (∀ m ∈ (s.port p).notices, n.key ≤ m.key) →
      (∀ m ∈ (s.port p).notices, m.key = n.key → m = n) →
      ∃ u, exec (.nextNotice p) s = .next (answered p (.nextNotice p) .ok
          ([BitVec.ofNat 8 n.cls, BitVec.ofNat 8 n.subject, if (u.port p).notices = [] then 0 else 1] ++ noticeDetail n s) u) ∧
        noticeDetail n s = (match n with
          | .fault b | .aborted b | .readyToRelease b | .presence b | .owner b | .bayState b =>
            [BitVec.ofNat 8 (bayStateCode (s.record b).state), BitVec.ofNat 8 (ownerCode (s.record b).owner),
              BitVec.ofNat 8 (reportStatusCode (s.record b).reportStatus), 0]
          | .planRetired k =>
            [BitVec.ofNat 8 (planStateCode (s.store.entry k).state)] ++ bytesOf 2 (s.store.entry k).version ++ [0]
          | .cellState => [BitVec.ofNat 8 (cellStateCode s.cell.state), 0, 0, 0]
          | .backlog | .reportAvailable => [BitVec.ofNat 8 s.reports.queue.length, BitVec.ofNat 8 s.reports.waiting.length,
              if s.reports.backlog then 1 else 0, 0]) ∧
        (noticeDetail n s).length = 4 ∧ n ∉ (u.port p).notices ∧ (∀ m, m ≠ n → (m ∈ (u.port p).notices ↔ m ∈ (s.port p).notices)) ∧
        ((u.port p).notices = [] → (u.port p).quietTimer = (s.port p).interval ∧ (u.port p).ntf = false) ∧
        ((u.port p).notices ≠ [] → (u.port p).quietTimer = (s.port p).quietTimer) ∧
        u.port p = { s.port p with notices := (u.port p).notices, quietTimer := (u.port p).quietTimer, ntf := (u.port p).ntf } ∧
        u = { s with ports := u.ports } ∧ ∀ q, q ≠ p → u.port q = s.port q) ∧
    (∀ mask : BitVec 16, ∃ u, exec (.setNoticeMask p mask) s = .next (answered p (.setNoticeMask p mask) .ok
          (bytesOf 2 (mask.toNat % 1024)) u) ∧
        (u.port p).mask.toNat = mask.toNat % 1024 ∧
        (∀ m, m ∈ (u.port p).notices ↔ m ∈ (s.port p).notices ∧ mask.getLsbD (m.cls - 1) = true) ∧
        ((u.port p).notices = [] → (u.port p).ntf = false) ∧
        u.port p = { s.port p with mask := (u.port p).mask, notices := (u.port p).notices, ntf := (u.port p).ntf } ∧
        u = { s with ports := u.ports } ∧ ∀ q, q ≠ p → u.port q = s.port q) ∧
    (∀ ms : Nat, exec (.setNoticeInterval p ms) s = .next (answered p (.setNoticeInterval p ms) .ok (bytesOf 2 (min 1000 ms))
      (mapPort p (fun x => { x with interval := min 1000 ms }) s))) ∧
    ((s.port p).quietTimer = 0 → exec (.quietTimerExpiry p) s =
      .next (mapPort p (fun x => { x with ntf := decide (x.notices ≠ []) }) s)) ∧
    ((s.port p).quietTimer ≠ 0 → exec (.quietTimerExpiry p) s = .next s)

/-! ## Cell commands and configuration -/

/-- CELL RUN and CELL STOP (R1, R2), SET CELL (R4), CLEAR TABLES (R5, R33). -/
def Obligations.CellCommandsAct : Prop :=
  ∀ s : State,
    (s.cell.state ≠ .running → exec (.cellRun .cell) s = .next (answered .cell (.cellRun .cell) .ok [2]
      (raise .cellState { s with cell := { s.cell with state := .running } }))) ∧
    (s.cell.state = .running → exec (.cellRun .cell) s = .next (answered .cell (.cellRun .cell) .ok [2] s)) ∧
    (s.cell.state = .running → (∀ b, (s.record b).state.sequenced = false) →
      exec (.cellStop .cell) s = .next (answered .cell (.cellStop .cell) .ok [1]
        (raise .cellState { s with cell := { s.cell with state := .stopped } }))) ∧
    (∀ b, s.cell.state = .running → (s.record b).state.sequenced = true →
      exec (.cellStop .cell) s = .next (answered .cell (.cellStop .cell) .ok [3]
        (raise .cellState { s with cell := { s.cell with state := .stopping } }))) ∧
    (s.cell.state ≠ .running → exec (.cellStop .cell) s =
      .next (answered .cell (.cellStop .cell) .ok [if s.cell.state = .stopped then 1 else 3] s)) ∧
    (s.cell.state ≠ .stopped → exec (.clearTables .cell) s = .next (answered .cell (.clearTables .cell) .wrongState [] s)) ∧
    (s.cell.state = .stopped → ∃ st : PlanStore,
      exec (.clearTables .cell) s = .next (answered .cell (.clearTables .cell) .ok [] { s with store := st }) ∧
      (∀ k, st.slotAt k = none) ∧ st.variants = [] ∧
      (∀ n, isPlanNumber n = true → st.entry n = ⟨.empty, none, (s.store.entry n).version, false, 0, none, none⟩) ∧
      (∀ i, i ≤ 55 → st.commonAt i = 0) ∧ (∀ i, isCountdown i = true → st.commonAt i = 1))

/-- R4: SET CELL in every cell state. -/
def Obligations.SetCellClampsAndStores : Prop :=
  ∀ (s : State) (ramp threshold : Nat),
    let r := if ramp < 100 then 100 else if 2000 < ramp then 2000 else ramp
    let t := if threshold < 1 then 1 else if 16 < threshold then 16 else threshold
    exec (.setCell .cell ramp threshold) s = .next (answered .cell (.setCell .cell ramp threshold) .ok
      (bytesOf 2 r ++ bytesOf 1 t) { s with cell := { s.cell with stopRamp := r, backlogThreshold := t } })

/-- A bay number outside 0..3 is BAD_ARGUMENT for every command that carries one (R9). CONFIGURE BAY in EMPTY with owner LINE clamps and
stores (R6); PRESENT in EMPTY with an axle present loads the bay and clears its record (R7, R10); with their refusals in order (R9; an
argument outside its range before the state, log 15). -/
def Obligations.ConfigureAndPresentAct : Prop :=
  (∀ (p : PortId) (n : Nat) (i : Instr) (s : State), 3 < n → p ∈ carriedOn i →
    (∃ serial code, i = .present p n serial code) ∨ i = .handover p n ∨ i = .withdraw p n ∨ i = .release p n ∨
      (∃ mask, i = .setLines p n mask ∨ i = .clearLines p n mask) ∨ i = .readBay p n ∨
      (∃ speed width angle m, i = .configureBay p n speed width angle m) ∨ i = .hold p n ∨ i = .resume p n ∨ i = .abort p n ∨
      i = .takeManual p n ∨ i = .returnManual p n ∨ (∃ speed, i = .jog p n speed) ∨ i = .readLive p n →
    exec i s = .next (answered p i .badArgument [] s)) ∧
  ∀ (b : BayId) (n : Nat) (s : State), bayOfCode n = some b →
    (∀ (speed width angle : Nat) (m : FunctionMap),
      let i := Instr.configureBay .cell n speed width angle m
      let c : BayConfig := ⟨max 100 (min 3000 speed), max 12 (min 16 width), min 63 angle, m⟩
      ((s.record b).state = .empty → (s.record b).owner = .line → exec i s = .next (answered .cell i .ok
        (bytesOf 2 c.speedLimit ++ bytesOf 1 c.wordWidth ++ bytesOf 1 c.angleOffset ++ [mapByte m])
        (mapBay b (fun x => { x with config := c }) s))) ∧
      ((s.record b).state ≠ .empty ∨ (s.record b).owner ≠ .line → exec i s = .next (answered .cell i .wrongState [] s))) ∧
    (∀ (serial : List Byte) (code : Nat),
      let i := Instr.present .line n serial code
      (serial = [] ∨ 20 < serial.length → exec i s = .next (answered .line i .badArgument [] s)) ∧
      (1 ≤ serial.length → serial.length ≤ 20 → code ≤ 65535 →
        ((s.record b).owner = .cell → exec i s = .next (answered .line i .owned [] s)) ∧
        ((s.record b).owner ≠ .cell → (s.record b).state ≠ .empty → exec i s = .next (answered .line i .wrongState [] s)) ∧
        ((s.record b).owner ≠ .cell → (s.record b).state = .empty → (s.record b).inputs.pres = false →
          exec i s = .next (answered .line i .noAxle [] s)) ∧
        ((s.record b).owner ≠ .cell → (s.record b).state = .empty → (s.record b).inputs.pres = true →
          exec i s = .next (answered .line i .ok [] (raise (.bayState b) (mapRecord b (fun r =>
            { BayRecord.reset with
              state := .loaded, owner := r.owner, serial := some serial, variantCode := code, lines := r.lines, inputs := r.inputs,
              pendingReductions := r.pendingReductions }) s))))))

/-! ## A bay under test -/

/-- HANDOVER: its refusals in the order of R11, and an accepted one: with the variant found the bay is RUNNING under the sequencer and
comes to its first boundary (R12, R25, R39, R54, R75, R105); with none the axle is diverted (R12, R151, R155). The state named in the
answer is log 14's, the cause UNKNOWN_VARIANT in the record's cause field log 30's. -/
def Obligations.HandoverStartsPlanOrDiverts : Prop :=
  ∀ (b : BayId) (n : Nat) (s : State), bayOfCode n = some b →
    let i := Instr.handover .line n
    let r := s.record b
    let refused := fun st : Status => exec i s = .next (answered .line i st [] s)
    (r.owner = .cell → refused .owned) ∧
    (r.owner ≠ .cell → r.state ≠ .loaded → refused .wrongState) ∧
    (r.owner ≠ .cell → r.state = .loaded →
      (s.cell.state ≠ .running → refused .cellStopped) ∧
      (s.cell.state = .running → r.inputs.grd = false → refused .guardOpen) ∧
      (s.cell.state = .running → r.inputs.grd = true → r.inputs.clmp = false ∨ r.inputs.cpld = false → refused .notClamped) ∧
      (s.cell.state = .running → r.inputs.grd = true → r.inputs.clmp = true → r.inputs.cpld = true →
        (∀ v ∈ s.store.variants, VariantsOk s → v.code = r.variantCode → isPlanNumber v.plan = true →
          ∃ u, exec i s = .next (answered .line i .ok [3] (boundary b ((s.store.entry v.plan).head.getD 255) u)) ∧
            u.record b = { r with
              state := .running, owner := .sequencer, planNumber := some v.plan, planVersion := some (s.store.entry v.plan).version,
              slot := (s.store.entry v.plan).head, handoverTime := some s.now, lines := (u.record b).lines } ∧
            u.store.entry v.plan = { s.store.entry v.plan with refCount := (s.store.entry v.plan).refCount + 1 } ∧
            (∀ m, m ≠ v.plan → u.store.entry m = s.store.entry m) ∧
            u.store.slots = s.store.slots ∧ u.store.variants = s.store.variants ∧ u.store.common = s.store.common ∧
            (u.bay b).config = (s.bay b).config ∧ (u.bay b).noise = (s.bay b).noise ∧ (u.bay b).leak = (s.bay b).leak ∧
            (∀ c, c ≠ b → u.bay c = s.bay c) ∧ u = { s with store := u.store, bays := u.bays, ports := u.ports } ∧
            PortsRaised s u ∧ (u.bay b).drive = { (s.bay b).drive with enable := true, target := 0, x := 0 } ∧
            (u.bay b).sensor = { (s.bay b).sensor with lossWatch := some ⟨0, 0, false⟩ } ∧
            ((s.bay b).config.map.clamp = .driven → (u.record b).lines.clamp = true) ∧
            ((s.bay b).config.map.couple = .driven → (u.record b).lines.couple = true) ∧
            ((s.bay b).config.map.clamp = .held → (u.record b).lines.clamp = r.lines.clamp) ∧
            ((s.bay b).leak.phase = .idle → LinesDriven b false false s u) ∧
            (u.record b).lines.fill = r.lines.fill ∧ Offered (.owner b) u ∧ Offered (.bayState b) u) ∧
        ((∀ v ∈ s.store.variants, v.code ≠ r.variantCode) →
          ∃ u, exec i s = .next (answered .line i .ok [7] u) ∧ u.bay b = { s.bay b with record := { r with
              state := .finished, cause := some .unknownVariant, handoverTime := some s.now,
              reportStatus := (u.record b).reportStatus } } ∧
            u = { s with bays := u.bays, reports := u.reports, ports := u.ports } ∧ PortsRaised s u ∧ Offered (.bayState b) u ∧
            ReportTaken b { reportOf b .diverted (some .unknownVariant) r.secondary s with handoverTime := some s.now } s u)))

/-- A boundary: the end request is looked at first, then the hold request, then the link (R16, R55, R66). A link that names a slot
enters its step: a skip test that reads results waits while reductions are pending, a step whose test lets it run begins, and one that
is skipped or ends at once comes to the boundary of its own next link (R54, R57 to R59). A chain of a published plan always comes to a
step that stays or to CLOSING within its 64 steps (R36, R54). Entry into HELD (R16, R55) and into CLOSING, which a drive at rest with no
reduction pending passes through into FINISHED (R25, R67, R68, R89, R90). -/
def Obligations.BoundaryFollowsRequestsThenChain : Prop :=
  (∀ (b : BayId) (link : Nat) (s : State),
    ((s.record b).endRequest = true → boundary b link s = enterClosing b s) ∧
    ((s.record b).endRequest = false → (s.record b).holdRequest = true → boundary b link s = enterHeld b .after s) ∧
    ((s.record b).endRequest = false → (s.record b).holdRequest = false → boundary b 255 s = enterClosing b s)) ∧
  (∀ (b : BayId) (n head link : Nat) (s : State) (visited : List Nat) (total : Nat) (o : OwnedStep),
    s.store.judgeChain n head = .ok (visited, total) → link ∈ visited → s.store.slotAt link = some o →
    (s.record b).endRequest = false → (s.record b).holdRequest = false →
    let r := s.record b
    let entered := mapRecord b (fun r => { r with slot := some link, phase := .none })
    let ended := mapRecord b (fun r => { r with phase := .none, latched := none, startTemperature := none })
    let runs := fun u : State =>
      ((beginStep b o.record u).1 = false → boundary b link s = (beginStep b o.record u).2) ∧
      ((beginStep b o.record u).1 = true → boundary b link s = boundary b o.record.next (ended (beginStep b o.record u).2))
    let skipped := fun u : State => boundary b link s = boundary b o.record.next (ended u)
    let reads := o.record.skip = .ifClean ∨ o.record.skip = .unlessClean ∨ o.record.skip = .ifLastPass
    let clean := match o.record.skip with
      | .ifClean => r.verdict ≠ .pass
      | .unlessClean => r.verdict = .pass
      | .ifLastPass => ∀ x, r.results.getLast? = some x → x.verdict ≠ .pass
      | .run | .audit => True
    (reads → r.pendingReductions ≠ 0 →
      boundary b link s = mapRecord b (fun r => { r with slot := some link, phase := .entryWait }) s) ∧
    (reads → r.pendingReductions = 0 → clean → runs (entered s)) ∧
    (reads → r.pendingReductions = 0 → ¬clean → skipped (entered s)) ∧
    (o.record.skip = .run → runs (entered s)) ∧
    (∀ c, o.record.skip = .audit → o.record.auditCell = some c →
      let u := { entered s with store := (s.store.auditDecrement c).2 }
      (s.store.commonAt c = 1 → runs (mapRecord b (fun r => { r with audit := true }) u)) ∧
      (s.store.commonAt c ≠ 1 → skipped u))) ∧
  (∀ (b : BayId) (point : HoldPoint) (s : State), enterHeld b point s = raise (.bayState b) (mapRecord b (fun r =>
    { r with state := .held, holdRequest := false, holdStart := some s.now, holdPoint := some point, phase := .none }) s)) ∧
  (∀ (b : BayId) (s : State), (s.record b).owner = .sequencer → ∃ u, ClosingEntered b s u ∧
    let d := (s.bay b).drive
    let speed := d.latest.elim 0 (·.speed)
    (d.x ≠ 0 ∨ 5 < speed.natAbs → enterClosing b s = u) ∧
    (d.x = 0 → speed.natAbs ≤ 5 →
      ((s.record b).pendingReductions ≠ 0 → enterClosing b s = mapDrive b (fun d => { d with windDown := .over }) u) ∧
      ((s.record b).pendingReductions = 0 → FinishedWith b (match worstOf (s.record b).results with
          | .pass => .pass | .marginal => .marginal | .invalid => .incomplete | .fail => .fail)
        (s.record b).cause (s.record b).secondary u (enterClosing b s)))) ∧
  (∀ (b : BayId) (n head link : Nat) (s : State) (visited : List Nat) (total fuel : Nat),
    s.store.judgeChain n head = .ok (visited, total) → link ∈ visited ∨ link = 255 → 65 ≤ fuel →
    walk fuel b link s = boundary b link s)

/-- Step entry resolves, clamps and checks the operands in one event: a faulting reference aborts with cause REFERENCE (R20, R51), a
clamp that changes a value marks the bay adjusted, a limit pair out of order ends the step with LIMIT_ORDER, and otherwise the step
starts now (R48, R51 to R53, R60). The value of every form of reference, with three indirections at most (R49, R50); the references a
kind uses, in order (R48); the range of every operand (R47); the limit pairs, in order or not (R53). The start of each kind's work: RAMP
(R81, R82), DWELL (R85), LISTEN with BUFFER_WAIT and TOO_SLOW (R110 to R112), LEAK with PLAN_CONFLICT, LINES_HELD and AMBIENT (R25,
R136, R137). -/
def Obligations.StepEntryResolvesOperands : Prop :=
  (∀ (s : State) (code : Nat), let st := s.store
    (∀ v, st.resolve code (.immediate v) = some v) ∧ (∀ i, st.resolve code (.common i) = some (st.commonAt i)) ∧
    (∀ i, (∀ v ∈ st.variants, v.code ≠ code) → st.resolve code (.variant i) = none) ∧
    (∀ (v : VariantEntry) (i : Fin 16), VariantsOk s → v ∈ st.variants → v.code = code →
      st.resolve code (.variant i) = some v.cells[i]) ∧
    (∀ i, st.resolve code (.indirect i) = st.resolveIndirect code 3 i ∧ st.resolveIndirect code 0 i = none) ∧
    (∀ n i, let v := st.commonAt i
      (∀ j : Nat, j ≤ 15 → v = 256 + j → st.resolveIndirect code (n + 1) i = st.resolve code (.variant j)) ∧
      (∀ j : Nat, j ≤ 63 → v = 512 + j → st.resolveIndirect code (n + 1) i = some (st.commonAt j)) ∧
      (∀ j : Nat, j ≤ 63 → v = 768 + j → st.resolveIndirect code (n + 1) i = st.resolveIndirect code n j) ∧
      (v < 256 ∨ 271 < v ∧ v < 512 ∨ 575 < v ∧ v < 768 ∨ 831 < v → st.resolveIndirect code (n + 1) i = none)) ∧
    (∀ rec : StepRecord, let n := match rec.kind with | .ramp => 5 | .dwell => 5 | .listen => 10 | .leak => 9
      (st.resolveStep code rec = none ↔ ∃ k : Fin 10, k.val < n ∧ st.resolve code rec.refs[k] = none) ∧
      ∀ vs, st.resolveStep code rec = some vs → vs.length = n ∧
        ∀ k : Fin 10, k.val < n → vs[k.val]? = st.resolve code rec.refs[k])) ∧
  (∀ limit : Nat,
    operandRanges limit .ramp = [(-(limit : Int), (limit : Int)), (10, 2000), (0, 20000), (5, 200), (100, 120000)] ∧
    operandRanges limit .dwell = (100, 600000) :: List.replicate 4 (0, 20000) ∧
    operandRanges limit .listen = [(4, 10), (5, 15)] ++ List.replicate 6 (0, 65535) ++ [(0, 15), (1000, 120000)] ∧
    operandRanges limit .leak = [(5000, 60000), (2000, 40000), (1000, 60000), (0, 60000), (2, 60), (0, 65535), (0, 65535), (0, 500),
      (0, 2)]) ∧
  (∀ a b c d e f g h i j : Int,
    operandsOf .ramp [a, b, c, d, e] = .ramp { target := a, rate := b, torque := c, tolerance := d, timeout := e } ∧
    operandsOf .dwell [a, b, c, d, e] = .dwell { duration := a, torquePass := b, torqueFail := c, risePass := d, riseFail := e } ∧
    operandsOf .listen [a, b, c, d, e, f, g, h, i, j] = .listen
      { exponent := a, order := b, baseM := c, base2M := d, passM := e, failM := f, pass2M := g, fail2M := h, slipAllowance := i,
        timeout := j } ∧
    operandsOf .leak [a, b, c, d, e, f, g, h, i] = .leak
      { pressure := a, volume := b, fillLimit := c, settleTime := d, measureTime := e, passLimit := f, failLimit := g, deltaTMax := h,
        retries := i }) ∧
  ((∀ o, pairOutOfOrder (.ramp o) = none) ∧
    (∀ o : DwellOps, pairOutOfOrder (.dwell o) =
      if o.torqueFail < o.torquePass then some (.torque, o.torquePass, o.torqueFail)
      else if o.riseFail < o.risePass then some (.temperature, o.risePass, o.riseFail) else none) ∧
    (∀ o : ListenOps, pairOutOfOrder (.listen o) =
      if o.failM < o.passM then some (.noise, o.passM, o.failM)
      else if o.fail2M < o.pass2M then some (.noise, o.pass2M, o.fail2M) else none) ∧
    (∀ o : LeakOps, (pairOutOfOrder (.leak o) = none ↔ o.passLimit ≤ o.failLimit) ∧
      (o.failLimit < o.passLimit → pairOutOfOrder (.leak o) = some (.leak, o.passLimit, o.failLimit)))) ∧
  (∀ (b : BayId) (rec : StepRecord) (s : State),
    (s.store.resolveStep (s.record b).variantCode rec = none → beginStep b rec s = (false, takeFault b .reference s) ∧
      (ReducerOk s → StepsOk s → DrivesOk s → (s.record b).state = .running → AbortTaken b .reference s (takeFault b .reference s))) ∧
    (∀ vs, s.store.resolveStep (s.record b).variantCode rec = some vs →
      vs.length = (match rec.kind with | .ramp => 5 | .dwell => 5 | .listen => 10 | .leak => 9) ∧
      let clamped := clampOperands (operandRanges (s.bay b).config.speedLimit rec.kind) vs
      clamped.length = vs.length ∧
      (∀ (k : Nat) (lo hi v : Int), (operandRanges (s.bay b).config.speedLimit rec.kind)[k]? = some (lo, hi) → vs[k]? = some v →
        clamped[k]? = some (if v < lo then lo else if hi < v then hi else v)) ∧
      let u := mapRecord b (fun r => { r with adjusted := r.adjusted || decide (clamped ≠ vs) }) s
      (∀ check pass fail, pairOutOfOrder (operandsOf rec.kind clamped) = some (check, pass, fail) →
        fail < pass ∧ beginStep b rec s =
          (true, postResult b (stepResult u b rec.kind check .invalid (some .limitOrder) pass fail Notes.none) u)) ∧
      (pairOutOfOrder (operandsOf rec.kind clamped) = none → beginStep b rec s =
        startWork b (operandsOf rec.kind clamped)
          (mapRecord b (fun r => { r with stepStart := some s.now, latched := some (operandsOf rec.kind clamped) }) u)))) ∧
  ∀ (b : BayId) (s : State),
    let d := (s.bay b).drive
    let speed := d.latest.elim 0 (·.speed)
    let invalid := fun (kind : StepKind) (check : Check) (cause : Cause) (value1 value2 : Int) =>
      posted b [stepResult s b kind check .invalid (some cause) value1 value2 Notes.none] s
    (∀ o : RampOps,
      let g := mapDrive b (fun d => { d with target := o.target, rampRate := o.rate.toNat, torqueLimit := o.torque.toNat }) s
      startWork b (.ramp o) s =
        if d.x ≠ o.target * 1000 then (false, mapRecord b (fun r => { r with phase := .ramping }) g)
        else if (speed - o.target).natAbs ≤ o.tolerance then (true, g)
        else (false, mapRecord b (fun r => { r with phase := .tracking }) g)) ∧
    (∀ o : DwellOps, ∃ t, startWork b (.dwell o) s = (false, t) ∧ t = mapBay b (fun x =>
      { x with
        record := { x.record with
          phase := .dwelling
          startTemperature := if o.risePass = 0 ∧ o.riseFail = 0 then none else x.sensor.temperatureNow }
        drive := { x.drive with
          dwell := if o.torquePass = 0 ∧ o.torqueFail = 0 then x.drive.dwell else some ⟨0, 0, 0⟩ } }) s) ∧
    (∀ o : ListenOps, startWork b (.listen o) s = startListen b o s ∧
      ((∀ k, (s.buf b k).state ≠ .free) → startListen b o s = (false, mapRecord b (fun r => { r with phase := .bufferWait }) s)) ∧
      (∀ k, (s.buf b k).state = .free → (k = .a1 → (s.buf b .a0).state ≠ .free) →
        (speed.natAbs < 60 → (s.record b).state = .running →
          startListen b o s = (true, invalid .listen .noise .tooSlow speed 0)) ∧
        (60 ≤ speed.natAbs → startListen b o s = (false, mapRecord b (fun r => { r with phase := .listening })
          (mapNoise b (fun n => { n.set k
            { state := .acquiring, lanes := Vector.replicate _ 0, revolutions := 0, slips := 0, saturated := false,
              acquisitionStart := some s.now, ops := some o, slot := (s.record b).slot, discard := false } with
            row := .hunting, staging := [] }) s))))) ∧
    (∀ o : LeakOps, (s.record b).state = .running →
      (d.target ≠ 0 ∨ 5 < speed.natAbs →
        startWork b (.leak o) s = (true, invalid .leak .leak .planConflict d.target speed)) ∧
      (d.target = 0 → speed.natAbs ≤ 5 →
        ((s.bay b).config.map.sealHeads = .held ∨ (s.bay b).config.map.vent = .held →
          startWork b (.leak o) s = (true, invalid .leak .leak .linesHeld 0 0)) ∧
        ((s.bay b).config.map.sealHeads = .driven → (s.bay b).config.map.vent = .driven → (s.record b).owner = .sequencer →
          ∃ t, startWork b (.leak o) s = (false, t) ∧
            let copied := mapLeak b (fun u => { u with ops := some o }) s
            ((s.bay b).sensor.pressureSince s.now s.now = none →
              LeakMoved b s t ∧ Unposted b s t ∧ LinesDriven b true true s t ∧ (t.record b).lines.fill = (s.record b).lines.fill ∧
              t.manifold = s.manifold ∧ (t.record b).phase = .ambient ∧
              (t.bay b).leak = { (copied.bay b).leak with phase := .ambient, phaseStart := some s.now, startMeans := none }) ∧
            (∀ pa, (s.bay b).sensor.pressureSince s.now s.now = some pa → (s.manifold.granted = none → s.manifold.queue = []) →
              AmbientEnded b pa copied t))))

/-- HOLD and RESUME by the bay's state (R16, R17, R55, R56). -/
def Obligations.HoldAndResumeAct : Prop :=
  ∀ (b : BayId) (n : Nat) (s : State), bayOfCode n = some b →
    let r := s.record b
    let hold := Instr.hold .cell n
    let resume := Instr.resume .cell n
    (r.state = .running → r.phase = .entryWait → exec hold s = .next (answered .cell hold .ok [] (raise (.bayState b)
      (mapRecord b (fun r =>
        { r with state := .held, holdRequest := false, holdStart := some s.now, holdPoint := some .before, phase := .none }) s)))) ∧
    (r.state = .running → r.phase ≠ .entryWait →
      exec hold s = .next (answered .cell hold .ok [] (mapRecord b (fun r => { r with holdRequest := true }) s))) ∧
    (r.state = .held → exec hold s = .next (answered .cell hold .ok [] s)) ∧
    (r.state = .closing → exec hold s = .next (answered .cell hold .noStepsLeft [] s)) ∧
    (r.state ≠ .running → r.state ≠ .held → r.state ≠ .closing → exec hold s = .next (answered .cell hold .wrongState [] s)) ∧
    (r.state = .running → exec resume s =
      .next (answered .cell resume .ok [] (mapRecord b (fun r => { r with holdRequest := false }) s))) ∧
    (r.state ≠ .running → r.state ≠ .held → exec resume s = .next (answered .cell resume .wrongState [] s)) ∧
    (r.state = .held →
      let u := raise (.bayState b) (mapRecord b (fun r =>
        { r with state := .running, holdStart := none, holdPoint := none, holdRequest := false }) s)
      (∀ k, r.holdPoint = some .before → r.slot = some k →
        exec resume s = .next (answered .cell resume .ok [] (boundary b k u))) ∧
      (∀ k o, r.holdPoint = some .after → r.slot = some k → s.store.slotAt k = some o →
        exec resume s = .next (answered .cell resume .ok [] (boundary b o.record.next u))))

/-- WITHDRAW in LOADED diverts the axle (R13); RELEASE by the report status, straight through UNLOADING when the axle is gone (R14,
R15); with their refusals (R9). That the record's cause field takes WITHDRAWN is log 30's reading. -/
def Obligations.WithdrawAndReleaseAct : Prop :=
  ∀ (b : BayId) (n : Nat) (s : State), bayOfCode n = some b →
    let r := s.record b
    let w := Instr.withdraw .line n
    let l := Instr.release .line n
    (r.owner = .cell → exec w s = .next (answered .line w .owned [] s)) ∧
    (r.owner ≠ .cell → r.state = .empty ∨ r.state = .finished ∨ r.state = .unloading →
      exec w s = .next (answered .line w .wrongState [] s)) ∧
    (r.owner ≠ .cell → r.state = .loaded →
      ∃ u, exec w s = .next (answered .line w .ok [] u) ∧ u.bay b = { s.bay b with record := { r with
          state := .finished, cause := some .withdrawn, reportStatus := (u.record b).reportStatus } } ∧
        u = { s with bays := u.bays, reports := u.reports, ports := u.ports } ∧ PortsRaised s u ∧ Offered (.bayState b) u ∧
        ReportTaken b (reportOf b .diverted (some .withdrawn) r.secondary s) s u) ∧
    (r.state ≠ .finished → exec l s = .next (answered .line l .wrongState [] s)) ∧
    (r.state = .finished → r.reportStatus ≠ .committed → exec l s = .next (answered .line l .reportPending [] s)) ∧
    (r.state = .finished → r.reportStatus = .committed →
      (r.inputs.pres = true → exec l s = .next (answered .line l .ok []
        (raise (.bayState b) (mapRecord b (fun r => { r with state := .unloading }) s)))) ∧
      (r.inputs.pres = false → exec l s = .next (answered .line l .ok []
        (raise (.bayState b) (mapRecord b (fun r => { BayRecord.reset with
          owner := r.owner, lines := r.lines, inputs := r.inputs, pendingReductions := r.pendingReductions }) s)))))

/-- SET LINES and CLEAR LINES: FILL is reserved, the owner decides, and the lines named take the value (R9, R23, R24). -/
def Obligations.LineCommandsWriteNamedLines : Prop :=
  ∀ (b : BayId) (n : Nat) (mask : BitVec 8) (p : PortId) (s : State), bayOfCode n = some b → p = .line ∨ p = .cell →
    ∀ (v : Bool) (i : Instr), i = (if v then Instr.setLines p n mask else Instr.clearLines p n mask) →
      let owner : Owner := if p = .line then .line else .cell
      (mask.getLsbD 3 = true → exec i s = .next (answered p i .lineReserved [] s)) ∧
      (mask.getLsbD 3 = false → (s.record b).owner ≠ owner → exec i s = .next (answered p i .owned [] s)) ∧
      (mask.getLsbD 3 = false → (s.record b).owner = owner →
        ∃ l : ActuatorLines, exec i s = .next (answered p i .ok [linesByte l] (mapRecord b (fun r => { r with lines := l }) s)) ∧
          l.clamp = (if mask.getLsbD 0 then v else (s.record b).lines.clamp) ∧
          l.couple = (if mask.getLsbD 1 then v else (s.record b).lines.couple) ∧
          l.sealHeads = (if mask.getLsbD 2 then v else (s.record b).lines.sealHeads) ∧
          l.vent = (if mask.getLsbD 4 then v else (s.record b).lines.vent) ∧ l.fill = (s.record b).lines.fill ∧
          (linesByte l).toNat = (if l.clamp then 1 else 0) + (if l.couple then 2 else 0) + (if l.sealHeads then 4 else 0) +
            (if l.fill then 8 else 0) + (if l.vent then 16 else 0))

/-- TAKE MANUAL, RETURN MANUAL and JOG (R27, R28, R75, R92), with their refusals. -/
def Obligations.ManualCommandsAct : Prop :=
  ∀ (b : BayId) (n : Nat) (s : State), bayOfCode n = some b →
    let r := s.record b
    let d := (s.bay b).drive
    let take := Instr.takeManual .cell n
    let back := Instr.returnManual .cell n
    (r.state = .empty ∨ r.state = .loaded → r.owner = .line → exec take s = .next (answered .cell take .ok []
      (raise (.owner b) (mapRecord b (fun r => { r with owner := .cell }) s)))) ∧
    (r.state = .empty ∨ r.state = .loaded → r.owner = .cell → exec take s = .next (answered .cell take .ok [] s)) ∧
    (r.state ≠ .empty → r.state ≠ .loaded → exec take s = .next (answered .cell take .wrongState [] s)) ∧
    (r.owner ≠ .cell → exec back s = .next (answered .cell back .wrongState [] s)) ∧
    (r.owner = .cell → d.jogTarget ≠ 0 ∨ 5 < (d.latest.elim 0 (·.speed)).natAbs →
      exec back s = .next (answered .cell back .driveMoving [] s)) ∧
    (r.owner = .cell → d.jogTarget = 0 → (d.latest.elim 0 (·.speed)).natAbs ≤ 5 → exec back s = .next (answered .cell back .ok []
      (raise (.owner b) (mapRecord b (fun r => { r with owner := .line }) (mapDrive b (fun d =>
        { d with enable := false, target := 0, x := 0, windDown := .none, missed := 0, lostGiven := false }) s))))) ∧
    (∀ v : Int, let jog := Instr.jog .cell n v
      (r.owner ≠ .cell → exec jog s = .next (answered .cell jog .owned [] s)) ∧
      (r.owner = .cell → v ≠ 0 →
        (r.inputs.grd = false → exec jog s = .next (answered .cell jog .guardOpen [] s)) ∧
        (∀ rep, r.inputs.grd = true → d.latest = some rep → rep.state = .fault →
          exec jog s = .next (answered .cell jog .wrongState [] s)) ∧
        (r.inputs.grd = true → (∀ rep, d.latest = some rep → rep.state ≠ .fault) → (s.bay b).config.Ok →
          ∃ w : Int, w ≠ 0 ∧ w.natAbs = min v.natAbs (min 300 (s.bay b).config.speedLimit) ∧ (0 < w ↔ 0 < v) ∧
            exec jog s = .next (answered .cell jog .ok (bytesOfInt 2 w)
              (mapDrive b (fun d => { d with jogTarget := w, target := w, rampRate := 200, enable := true }) s)))))

/-! ## The Plan Store -/

/-- OPEN PLAN (R34) and WRITE STEP (R29 to R31), with their refusals in order. A next link above 255 and an immediate beyond 24 bits,
which no field carries, are BAD_ARGUMENT by log 15's choice. -/
def Obligations.OpenAndWriteStepAct : Prop :=
  ∀ (n : Nat) (s : State),
    (isPlanNumber n = false → exec (.openPlan .cell n) s = .next (answered .cell (.openPlan .cell n) .badArgument [] s)) ∧
    (isPlanNumber n = true → (s.store.entry n).state ≠ .empty →
      exec (.openPlan .cell n) s = .next (answered .cell (.openPlan .cell n) .wrongState [] s)) ∧
    (isPlanNumber n = true → (s.store.entry n).state = .empty → ∃ st : PlanStore,
      exec (.openPlan .cell n) s = .next (answered .cell (.openPlan .cell n) .ok [] { s with store := st }) ∧
      st.entry n = { s.store.entry n with state := .loading } ∧ (∀ m, m ≠ n → st.entry m = s.store.entry m) ∧
      st.slots = s.store.slots ∧ st.variants = s.store.variants ∧ st.common = s.store.common) ∧
    (∀ (k : Nat) (rec : StepRecord), let i := Instr.writeStep .cell n k rec
      let inRange := k ≤ 254 ∧ rec.next ≤ 255 ∧ (rec.skip = .audit → ∃ c, rec.auditCell = some c ∧ 56 ≤ c ∧ c ≤ 63) ∧
        ∀ j : Fin 10, match rec.refs[j] with
          | .immediate v => -8388608 ≤ v ∧ v ≤ 8388607
          | .variant c => c ≤ 15
          | .common c => c ≤ 63
          | .indirect c => c ≤ 63
      (isPlanNumber n = false ∨ ¬inRange → exec i s = .next (answered .cell i .badArgument [] s)) ∧
      (isPlanNumber n = true → inRange →
        ((s.store.entry n).state ≠ .loading → exec i s = .next (answered .cell i .wrongState [] s)) ∧
        (∀ o, (s.store.entry n).state = .loading → s.store.slotAt k = some o → o.plan ≠ n →
          exec i s = .next (answered .cell i .slotTaken [] s)) ∧
        ((s.store.entry n).state = .loading → (∀ o, s.store.slotAt k = some o → o.plan = n) → ∃ st : PlanStore,
          exec i s = .next (answered .cell i .ok (bytesOf 1 k ++ bytesOf 1 st.freeCount) { s with store := st }) ∧
          st.slotAt k = some ⟨n, { rec with auditCell := if rec.skip = .audit then rec.auditCell else none }⟩ ∧
          (∀ j, j ≠ k → st.slotAt j = s.store.slotAt j) ∧
          st.freeCount = (if s.store.slotAt k = none then s.store.freeCount - 1 else s.store.freeCount) ∧
          st.directory = s.store.directory ∧ st.variants = s.store.variants ∧ st.common = s.store.common)))

/-- R37: DISCARD PLAN. -/
def Obligations.DiscardPlanFreesItsSlots : Prop :=
  ∀ (n : Nat) (s : State), let i := Instr.discardPlan .cell n
    (isPlanNumber n = false → exec i s = .next (answered .cell i .badArgument [] s)) ∧
    (isPlanNumber n = true → (s.store.entry n).state ≠ .loading → exec i s = .next (answered .cell i .wrongState [] s)) ∧
    (isPlanNumber n = true → (s.store.entry n).state = .loading → ∃ st : PlanStore,
      exec i s = .next (answered .cell i .ok (bytesOf 1 (s.store.ownedCount n)) { s with store := st }) ∧
      (∀ k o, s.store.slotAt k = some o → o.plan = n → st.slotAt k = none) ∧
      (∀ k o, s.store.slotAt k = some o → o.plan ≠ n → st.slotAt k = some o) ∧
      (∀ k, s.store.slotAt k = none → st.slotAt k = none) ∧ st.freeCount = s.store.freeCount + s.store.ownedCount n ∧
      st.entry n = ⟨.empty, none, (s.store.entry n).version, false, 0, none, none⟩ ∧
      (∀ m, m ≠ n → st.entry m = s.store.entry m) ∧ st.variants = s.store.variants ∧ st.common = s.store.common)

/-- The walk of R35: from a head it passes some of the plan's own slots, none twice, and stops at END, at a foreign slot or at a
revisit; that stop, then the number of steps, then the result total decide the outcome. PUBLISH PLAN: an accepted publication leaves
READY with its chain, frees the slots it does not reach and raises the version; a refused one names the first condition that fails (R35,
R36, R169). RETIRE PLAN by the references (R38, R39). The state in its answer is log 14's; BAD_ARGUMENT for a head above 255, which no
field carries, is log 15's. -/
def Obligations.PublishAndRetireAct : Prop :=
  (∀ (n head : Nat) (st : PlanStore),
    let foreign := fun k => ∀ o, st.slotAt k = some o → o.plan ≠ n
    (∃ path last, st.runs n path head last ∧ path.Nodup ∧ (last = 255 ∨ foreign last ∨ last ∈ path)) ∧
    ∀ path last, st.runs n path head last → path.Nodup →
      let total := (path.map fun k => match (st.slotAt k).map (·.record.kind) with
        | some .dwell => 2
        | some .listen => 1
        | some .leak => 1
        | some .ramp => 0
        | none => 0).sum
      (last ≠ 255 → foreign last → st.judgeChain n head = .error (.foreignSlot last)) ∧
      (last ∈ path → st.judgeChain n head = .error (.cycle last)) ∧
      (last = 255 → path = [] → st.judgeChain n head = .error .emptyPlan) ∧
      (last = 255 → path ≠ [] →
        (64 < path.length → st.judgeChain n head = .error .chainTooLong) ∧
        (path.length ≤ 64 → 32 < total → st.judgeChain n head = .error .tooManyResults) ∧
        (path.length ≤ 64 → total ≤ 32 → st.judgeChain n head = .ok (path.reverse, total)))) ∧
  ∀ (n : Nat) (s : State),
    (∀ (head : Nat) (flag : Bool), let i := Instr.publishPlan .cell n head flag
      (isPlanNumber n = false ∨ 255 < head → exec i s = .next (answered .cell i .badArgument [] s)) ∧
      (isPlanNumber n = true → head ≤ 255 → (s.store.entry n).state ≠ .loading →
        exec i s = .next (answered .cell i .wrongState [] s)) ∧
      (isPlanNumber n = true → head ≤ 255 → (s.store.entry n).state = .loading →
        (head = 255 → exec i s = .next (answered .cell i .planInvalid [1, 255] s)) ∧
        (∀ k, s.store.judgeChain n head = .error (.foreignSlot k) →
          (∀ o, s.store.slotAt k = some o → o.plan ≠ n) ∧ exec i s = .next (answered .cell i .planInvalid ([2] ++ bytesOf 1 k) s)) ∧
        (∀ k, s.store.judgeChain n head = .error (.cycle k) →
          exec i s = .next (answered .cell i .planInvalid ([3] ++ bytesOf 1 k) s)) ∧
        (s.store.judgeChain n head = .error .chainTooLong → exec i s = .next (answered .cell i .planInvalid [4, 255] s)) ∧
        (s.store.judgeChain n head = .error .tooManyResults → exec i s = .next (answered .cell i .planInvalid [5, 255] s)) ∧
        (∀ visited total, s.store.judgeChain n head = .ok (visited, total) → ∃ (st : PlanStore) (version : Nat),
          version = (if (s.store.entry n).version < 65535 then (s.store.entry n).version + 1 else 1) ∧
          exec i s = .next (answered .cell i .ok (bytesOf 2 version ++ bytesOf 1 visited.length ++ bytesOf 1 total ++
            bytesOf 1 (s.store.ownedCount n - visited.length)) { s with store := st }) ∧
          st.entry n = ⟨.ready, some head, version, flag, 0, some visited.length, some total⟩ ∧
          (∀ m, m ≠ n → st.entry m = s.store.entry m) ∧ head ∈ visited ∧ visited.Nodup ∧ visited.length ≤ 64 ∧ total ≤ 32 ∧
          (∀ k ∈ visited, ∃ rec, st.slotAt k = some ⟨n, rec⟩ ∧ s.store.slotAt k = some ⟨n, rec⟩ ∧
            (rec.next = 255 ∨ rec.next ∈ visited)) ∧
          (∀ k o, s.store.slotAt k = some o → o.plan = n → k ∉ visited → st.slotAt k = none) ∧
          (∀ k o, s.store.slotAt k = some o → o.plan ≠ n → st.slotAt k = some o) ∧
          st.variants = s.store.variants ∧ st.common = s.store.common))) ∧
    (let i := Instr.retirePlan .cell n;
      (isPlanNumber n = false → exec i s = .next (answered .cell i .badArgument [] s)) ∧
      (isPlanNumber n = true → (s.store.entry n).state ≠ .ready → exec i s = .next (answered .cell i .wrongState [] s)) ∧
      (isPlanNumber n = true → (s.store.entry n).state = .ready →
        (∀ v ∈ s.store.variants, v.plan = n → exec i s = .next (answered .cell i .inUse [] s)) ∧
        ((∀ v ∈ s.store.variants, v.plan ≠ n) → ∃ st : PlanStore,
          ((s.store.entry n).refCount = 0 →
            exec i s = .next (answered .cell i .ok [1] (raise (.planRetired n) { s with store := st })) ∧
            st.entry n = ⟨.empty, none, (s.store.entry n).version, false, 0, none, none⟩ ∧
            (∀ k o, s.store.slotAt k = some o → st.slotAt k = if o.plan = n then none else some o)) ∧
          ((s.store.entry n).refCount ≠ 0 →
            exec i s = .next (answered .cell i .ok [4] { s with store := st }) ∧
            st.entry n = { s.store.entry n with state := .retiring } ∧ st.slots = s.store.slots) ∧
          (∀ m, m ≠ n → st.entry m = s.store.entry m) ∧ st.variants = s.store.variants ∧ st.common = s.store.common)))

/-- WRITE VARIANT and DELETE VARIANT (R41 to R43) and WRITE CELL (R45). A value beyond 24 bits, which no field carries, is BAD_ARGUMENT
by log 15's choice. -/
def Obligations.VariantAndCellWritesAct : Prop :=
  ∀ s : State,
    (∀ (code n : Nat) (cells : Vector Int 16), let i := Instr.writeVariant .cell code n cells
      let inRange := 1 ≤ code ∧ code ≤ 65534 ∧ 1 ≤ n ∧ n ≤ 16 ∧ ∀ j : Fin 16, -8388608 ≤ cells[j] ∧ cells[j] ≤ 8388607
      (¬inRange → exec i s = .next (answered .cell i .badArgument [] s)) ∧
      (inRange → (s.store.entry n).state ≠ .ready → exec i s = .next (answered .cell i .planNotReady [] s)) ∧
      (inRange → (s.store.entry n).state = .ready → (∀ v ∈ s.store.variants, v.code ≠ code) → 32 ≤ s.store.variants.length →
        exec i s = .next (answered .cell i .tableFull [] s)) ∧
      (inRange → (s.store.entry n).state = .ready → VariantsOk s →
        (∃ v ∈ s.store.variants, v.code = code) ∨ s.store.variants.length < 32 → ∃ vs : List VariantEntry,
          exec i s = .next (answered .cell i .ok [] { s with store := { s.store with variants := vs } }) ∧
          ∀ v, v ∈ vs ↔ v = ⟨code, n, cells⟩ ∨ v ∈ s.store.variants ∧ v.code ≠ code)) ∧
    (∀ code : Nat, let i := Instr.deleteVariant .cell code
      (code = 0 ∨ 65534 < code → exec i s = .next (answered .cell i .badArgument [] s)) ∧
      (1 ≤ code → code ≤ 65534 → (∀ v ∈ s.store.variants, v.code ≠ code) →
        exec i s = .next (answered .cell i .notFound [] s)) ∧
      (1 ≤ code → code ≤ 65534 → (∃ v ∈ s.store.variants, v.code = code) → ∃ vs : List VariantEntry,
        exec i s = .next (answered .cell i .ok [] { s with store := { s.store with variants := vs } }) ∧
        ∀ v, v ∈ vs ↔ v ∈ s.store.variants ∧ v.code ≠ code)) ∧
    (∀ (k : Nat) (v : Int), let i := Instr.writeCell .cell k v
      (63 < k ∨ v < -8388608 ∨ 8388607 < v → exec i s = .next (answered .cell i .badArgument [] s)) ∧
      (k ≤ 63 → -8388608 ≤ v → v ≤ 8388607 → ∃ st : PlanStore,
        exec i s = .next (answered .cell i .ok (bytesOfInt 3 (st.commonAt k)) { s with store := st }) ∧
        (k ≤ 55 → st.commonAt k = v) ∧ (56 ≤ k → st.commonAt k = max 1 (min 65535 v)) ∧
        (∀ j, j ≠ k → st.commonAt j = s.store.commonAt j) ∧ st.slots = s.store.slots ∧ st.directory = s.store.directory ∧
        st.variants = s.store.variants))

/-! ## Reads and the report queue -/

/-- READ STEP, READ PLAN, READ VARIANT and READ CELL answer from the store and change nothing (R32, R40, R44, R45, R170, R172). READ
VARIANT with a start ordinal of 32 or more, outside R44's 0..31, answers no code by log 16's reading. -/
def Obligations.StoreReadsAnswer : Prop :=
  ∀ s : State,
    (∀ k, let i := Instr.readStep .cell k
      (254 < k → exec i s = .next (answered .cell i .badArgument [] s)) ∧
      (k ≤ 254 → s.store.slotAt k = none → exec i s = .next (answered .cell i .ok ([0] ++ bytesOf 1 k) s)) ∧
      (∀ o, k ≤ 254 → s.store.slotAt k = some o → (stepBytes o.plan k o.record).length = 46 ∧
        exec i s = .next (answered .cell i .ok (stepBytes o.plan k o.record) s))) ∧
    (∀ n, let i := Instr.readPlan .cell n
      let e := s.store.entry n
      (isPlanNumber n = false → exec i s = .next (answered .cell i .badArgument [] s)) ∧
      (isPlanNumber n = true → exec i s = .next (answered .cell i .ok (bytesOf 1 (planStateCode e.state) ++
        (match e.head with | none => [0, 0] | some k => [1] ++ bytesOf 1 k) ++ bytesOf 2 e.version ++ [if e.endOnFail then 1 else 0] ++
        bytesOf 1 e.refCount ++ (match e.stepCount with | none => [0, 0] | some k => [1] ++ bytesOf 1 k) ++
        (match e.resultBound with | none => [0, 0] | some k => [1] ++ bytesOf 1 k) ++ bytesOf 1 (s.store.ownedCount n) ++
        bytesOf 1 s.store.freeCount) s))) ∧
    (∀ code start, let i := Instr.readVariant .cell code start
      (code = 0 → ∃ codes : List Nat, codes = ((s.store.variants.map (·.code)).drop start).take 24 ∧
        exec i s = .next (answered .cell i .ok (bytesOf 1 s.store.variants.length ++ (codes.map (bytesOf 2)).flatten ++
          List.replicate (48 - 2 * codes.length) 0) s)) ∧
      (65534 < code → exec i s = .next (answered .cell i .badArgument [] s)) ∧
      (1 ≤ code → code ≤ 65534 → (∀ v ∈ s.store.variants, v.code ≠ code) → exec i s = .next (answered .cell i .notFound [] s)) ∧
      (∀ v ∈ s.store.variants, VariantsOk s → v.code = code →
        exec i s = .next (answered .cell i .ok (bytesOf 1 v.plan ++ (v.cells.toList.map (bytesOfInt 3)).flatten) s))) ∧
    (∀ k, let i := Instr.readCell .cell k
      (63 < k → exec i s = .next (answered .cell i .badArgument [] s)) ∧
      (k ≤ 63 → exec i s = .next (answered .cell i .ok (bytesOfInt 3 (s.store.commonAt k)) s)))

/-- NOP, READ BAY, READ LIVE, QUEUE STATUS and PEEK REPORT answer and change nothing (R8, R107, R159, R161, R169, R173), READ BAY with
the record, READ LIVE with the live values and PEEK REPORT from the report in the order and coding of the manual (R8, R107, R170, R173;
09, Byte layouts); where the layout of an optional field is not given it is log 13's. -/
def Obligations.StatusReadsAnswer : Prop :=
  ∀ (p : PortId) (s : State),
    exec (.nop p) s = .next (answered p (.nop p) .ok [] s) ∧
    (∀ r : BayRecord, recordBytes r = [BitVec.ofNat 8 (bayStateCode r.state), BitVec.ofNat 8 (ownerCode r.owner)] ++
      (match r.serial with | none => [0, 0] | some bs => [1, BitVec.ofNat 8 bs.length] ++ bs) ++ bytesOf 2 r.variantCode ++
      (match r.planNumber with | none => [0, 0] | some n => [1, BitVec.ofNat 8 n]) ++
      (match r.planVersion with | none => [0, 0, 0] | some v => [1] ++ bytesOf 2 v) ++
      (match r.slot with | none => [0, 0] | some k => [1, BitVec.ofNat 8 k]) ++
      [BitVec.ofNat 8 (phaseCode r.phase), if r.holdRequest then 1 else 0, if r.endRequest then 1 else 0,
        BitVec.ofNat 8 (verdictCode r.verdict), BitVec.ofNat 8 r.results.length, BitVec.ofNat 8 r.pendingReductions,
        if r.audit then 1 else 0, if r.adjusted then 1 else 0, BitVec.ofNat 8 (r.cause.elim 0 causeCode),
        BitVec.ofNat 8 (r.secondary.elim 0 causeCode), BitVec.ofNat 8 (reportStatusCode r.reportStatus),
        BitVec.ofNat 8 ((if r.lines.clamp then 1 else 0) + (if r.lines.couple then 2 else 0) + (if r.lines.sealHeads then 4 else 0) +
          (if r.lines.fill then 8 else 0) + (if r.lines.vent then 16 else 0)),
        BitVec.ofNat 8 ((if r.inputs.pres then 1 else 0) + (if r.inputs.clmp then 2 else 0) + (if r.inputs.cpld then 4 else 0) +
          (if r.inputs.grd then 8 else 0))]) ∧
    (∀ x : Bay, let d := x.drive
      let l := x.sensor
      liveBytes x = [BitVec.ofNat 8 (bayStateCode x.record.state), BitVec.ofNat 8 (ownerCode x.record.owner)] ++
        (match x.record.slot with | none => [0, 0] | some k => [1, BitVec.ofNat 8 k]) ++
        [BitVec.ofNat 8 (phaseCode x.record.phase), if d.enable then 1 else 0] ++ bytesOfInt 2 d.target ++ bytesOfInt 2 d.jogTarget ++
        bytesOfInt 2 (d.x.tdiv 1000) ++
        (match d.latest with
          | none => List.replicate 9 0
          | some r => [1, BitVec.ofNat 8 (driveStateCode r.state)] ++ bytesOfInt 2 r.speed ++ bytesOfInt 2 r.torque ++ [1] ++
            bytesOf 2 d.reportAge) ++ [BitVec.ofNat 8 d.missed] ++
        (match l.pressure.getLast? with
          | none => List.replicate 6 0
          | some v => [1] ++ bytesOfInt 2 v.word ++ [1] ++ bytesOf 2 l.pressureSilence) ++ [BitVec.ofNat 8 l.pressure.length] ++
        (match l.pressureNow with | none => List.replicate 4 0 | some v => [1] ++ bytesOfInt 3 v) ++
        (match l.temperature.getLast? with
          | none => List.replicate 6 0
          | some v => [1] ++ bytesOfInt 2 v.word ++ [1] ++ bytesOf 2 l.temperatureSilence) ++
        [BitVec.ofNat 8 l.temperature.length] ++
        (match l.temperatureNow with | none => List.replicate 3 0 | some v => [1] ++ bytesOfInt 2 v) ++
        (match l.vibration with | none => List.replicate 4 0 | some v => [1, BitVec.ofNat 8 v.angle] ++ bytesOfInt 2 v.value) ++
        bytesOf 2 l.vibrationSilence ++ bytesOf 2 l.framingErrors) ∧
    ([BayState.empty, .loaded, .running, .held, .closing, .aborting, .finished, .unloading].map bayStateCode = [1, 2, 3, 4, 5, 6, 7, 8] ∧
      [Owner.line, .sequencer, .cell].map ownerCode = [1, 2, 3] ∧ [Verdict.pass, .marginal, .invalid, .fail].map verdictCode = [1, 2, 3, 4] ∧
      [ReportStatus.none, .waiting, .committed].map reportStatusCode = [1, 2, 3] ∧
      [DriveState.ready, .running, .fault].map driveStateCode = [1, 2, 3] ∧
      [StepPhase.none, .entryWait, .ramping, .tracking, .dwelling, .bufferWait, .listening, .ambient, .fillWait, .fill, .settle, .measure,
        .vent].map phaseCode = List.range 13 ∧
      [Cause.lineWithdraw, .cellAbort, .axleLost, .clampLost, .guardOpen, .holdExpired, .reference, .driveLost, .driveFault, .driveTrack,
        .driveStuck, .sensorLost, .ventBlocked, .unknownVariant, .withdrawn, .limitOrder, .noData, .sensorShort, .tooSlow, .saturated,
        .sync, .timeout, .planConflict, .linesHeld, .unstable, .grossLeak].map causeCode = List.range' 1 26) ∧
    (∀ r : Report, reportBytes r = bytesOf 4 (r.sequence.getD 0) ++ [BitVec.ofNat 8 (bayCode r.bay),
        BitVec.ofNat 8 (finalVerdictCode r.verdict), BitVec.ofNat 8 (r.cause.elim 0 causeCode),
        BitVec.ofNat 8 (r.secondary.elim 0 causeCode),
        BitVec.ofNat 8 ((if r.audit then 1 else 0) + (if r.adjusted then 2 else 0) + (if r.handoverTime = none then 0 else 4)),
        BitVec.ofNat 8 r.planNumber] ++ bytesOf 2 r.planVersion ++ bytesOf 2 r.variantCode ++
      bytesOf 4 (r.handoverTime.elim 0 (·.toNat)) ++ bytesOf 4 r.finishTime.toNat ++
      [BitVec.ofNat 8 r.results.length, BitVec.ofNat 8 r.serial.length] ++ r.serial ++
      (r.results.map fun x => [BitVec.ofNat 8 x.slot, BitVec.ofNat 8 (kindCode x.kind), BitVec.ofNat 8 (checkCode x.check),
          BitVec.ofNat 8 (verdictCode x.verdict), BitVec.ofNat 8 (x.cause.elim 0 causeCode),
          BitVec.ofNat 8 ((if x.notes.gain then 1 else 0) + (if x.notes.retried then 4 else 0) + (if x.notes.saturatedQ then 8 else 0))] ++
        bytesOfInt 4 x.value1 ++ bytesOfInt 4 x.value2 ++ bytesOf 4 x.completion.toNat).flatten) ∧
    ([FinalVerdict.pass, .marginal, .incomplete, .fail, .aborted, .fault, .diverted].map finalVerdictCode = [1, 2, 3, 4, 5, 6, 7] ∧
      [StepKind.ramp, .dwell, .listen, .leak].map kindCode = [1, 2, 3, 4] ∧
      [Check.torque, .temperature, .noise, .leak].map checkCode = [1, 2, 3, 4]) ∧
    (∀ b n, bayOfCode n = some b → p = .line ∨ p = .cell →
      exec (.readBay p n) s = .next (answered p (.readBay p n) .ok (recordBytes (s.record b)) s)) ∧
    (∀ b n, bayOfCode n = some b →
      exec (.readLive .cell n) s = .next (answered .cell (.readLive .cell n) .ok (liveBytes (s.bay b)) s)) ∧
    (∀ n, bayOfCode n = none →
      (p = .line ∨ p = .cell → exec (.readBay p n) s = .next (answered p (.readBay p n) .badArgument [] s)) ∧
      exec (.readLive .cell n) s = .next (answered .cell (.readLive .cell n) .badArgument [] s)) ∧
    (p = .archive ∨ p = .cell →
      exec (.queueStatus p) s = .next (answered p (.queueStatus p) .ok (bytesOf 1 s.reports.queue.length ++
        (match s.reports.queue with | [] => [0, 0, 0, 0, 0] | r :: _ => [1] ++ bytesOf 4 (r.sequence.getD 0)) ++
        bytesOf 1 s.reports.waiting.length ++ (s.reports.waiting.map fun w => BitVec.ofNat 8 (bayCode w.bay)) ++
        List.replicate (4 - s.reports.waiting.length) 0 ++ bytesOf 4 s.reports.nextSequence ++
        [if s.reports.backlog then 1 else 0]) s) ∧
      ∀ offset length, let i := Instr.peekReport p offset length
        (s.reports.queue = [] → exec i s = .next (answered p i .queueEmpty [] s)) ∧
        (∀ r rest, s.reports.queue = r :: rest →
          (reportBytes r).length = 24 + r.serial.length + 18 * r.results.length ∧
          ((reportBytes r).length ≤ offset → exec i s = .next (answered p i .badArgument [] s)) ∧
          (offset < (reportBytes r).length → ∃ bs : List Byte,
            bs.length = min (min 48 length) ((reportBytes r).length - offset) ∧ bs <+: (reportBytes r).drop offset ∧
            exec i s = .next (answered p i .ok (bytesOf 4 (r.sequence.getD 0) ++ bytesOf 2 (reportBytes r).length ++
              bytesOf 2 offset ++ bs) s))))

/-- TAKE REPORT: the head leaves, the head of the waiting list is committed in the same event, and the backlog check follows (R155,
R157, R158, R160, R162), which raises BACKLOG when the mark was clear and the threshold is reached; with its refusals. That bay and
sequence number of the answer share one presence byte is log 13's. -/
def Obligations.TakeReportCommitsNextWaiting : Prop :=
  ∀ (n : Nat) (s : State), let i := Instr.takeReport .archive n
    (s.reports.queue = [] → exec i s = .next (answered .archive i .queueEmpty [] s)) ∧
    (∀ r rest, s.reports.queue = r :: rest →
      (r.sequence ≠ some n → exec i s = .next (answered .archive i .notFound [] s)) ∧
      (r.sequence = some n →
        (s.reports.waiting = [] → ∃ u, exec i s = .next (answered .archive i .ok
            (bytesOf 4 n ++ bytesOf 1 rest.length ++ [0, 0, 0, 0, 0, 0]) u) ∧
          u.reports = { s.reports with queue := rest, backlog := decide (s.cell.backlogThreshold ≤ rest.length) } ∧
          (s.reports.backlog = false → s.cell.backlogThreshold ≤ rest.length → Offered .backlog u) ∧
          u = { s with reports := u.reports, ports := u.ports } ∧ PortsRaised s u) ∧
        (∀ w ws, s.reports.waiting = w :: ws → ∃ u, exec i s = .next (answered .archive i .ok
            (bytesOf 4 n ++ bytesOf 1 (rest.length + 1) ++ [1] ++ bytesOf 1 (bayCode w.bay) ++ bytesOf 4 s.reports.nextSequence) u) ∧
          u.reports.queue = rest ++ [{ w.report with sequence := some s.reports.nextSequence }] ∧ u.reports.waiting = ws ∧
          u.reports.nextSequence = (if s.reports.nextSequence < 4294967295 then s.reports.nextSequence + 1 else 1) ∧
          u.reports.backlog = decide (s.cell.backlogThreshold ≤ rest.length + 1) ∧
          (s.reports.backlog = false → s.cell.backlogThreshold ≤ rest.length + 1 → Offered .backlog u) ∧
          u.record w.bay = { s.record w.bay with reportStatus := .committed } ∧ (∀ c, c ≠ w.bay → u.bay c = s.bay c) ∧
          Offered (.readyToRelease w.bay) u ∧ Offered .reportAvailable u ∧
          u = { s with bays := u.bays, reports := u.reports, ports := u.ports } ∧ PortsRaised s u)))
end

