-- ==== Sys2Proof/Laws/State.lean ====
section
/-! SUPPORT. One lemma for each component of the state and each update of it, so that no later proof unfolds a record update. -/

namespace Sys2Proof.Machine

/-! ## Bays and ports as arrays of four and three -/

@[simp] theorem Bays.get_set_same (bs : Bays) (b : BayId) (x : Bay) : (bs.set b x).get b = x := by
  cases b <;> rfl

theorem Bays.get_set_other (bs : Bays) {b c : BayId} (x : Bay) (h : c ≠ b) : (bs.set b x).get c = bs.get c := by
  cases b <;> cases c <;> first | rfl | exact absurd rfl h

theorem Bays.ext_get {bs cs : Bays} (h : ∀ b, bs.get b = cs.get b) : bs = cs := by
  cases bs; cases cs
  simp only [Bays.mk.injEq]
  exact ⟨h .bayA, h .bayB, h .bayC, h .bayD⟩

@[simp] theorem Ports.get_set_same (ps : Ports) (p : PortId) (x : Port) : (ps.set p x).get p = x := by
  cases p <;> rfl

theorem Ports.get_set_other (ps : Ports) {p q : PortId} (x : Port) (h : q ≠ p) : (ps.set p x).get q = ps.get q := by
  cases p <;> cases q <;> first | rfl | exact absurd rfl h

theorem Ports.ext_get {ps qs : Ports} (h : ∀ p, ps.get p = qs.get p) : ps = qs := by
  cases ps; cases qs
  simp only [Ports.mk.injEq]
  exact ⟨h .line, h .cell, h .archive⟩

/-! ## mapBay -/

@[simp] theorem mapBay_cell (b : BayId) (f : Bay → Bay) (s : State) : (mapBay b f s).cell = s.cell := rfl
@[simp] theorem mapBay_store (b : BayId) (f : Bay → Bay) (s : State) : (mapBay b f s).store = s.store := rfl
@[simp] theorem mapBay_reducer (b : BayId) (f : Bay → Bay) (s : State) : (mapBay b f s).reducer = s.reducer := rfl
@[simp] theorem mapBay_manifold (b : BayId) (f : Bay → Bay) (s : State) : (mapBay b f s).manifold = s.manifold := rfl
@[simp] theorem mapBay_reports (b : BayId) (f : Bay → Bay) (s : State) : (mapBay b f s).reports = s.reports := rfl
@[simp] theorem mapBay_ports (b : BayId) (f : Bay → Bay) (s : State) : (mapBay b f s).ports = s.ports := rfl
@[simp] theorem mapBay_pending (b : BayId) (f : Bay → Bay) (s : State) : (mapBay b f s).pending = s.pending := rfl
@[simp] theorem mapBay_now (b : BayId) (f : Bay → Bay) (s : State) : (mapBay b f s).now = s.now := rfl

@[simp] theorem mapBay_bay_same (b : BayId) (f : Bay → Bay) (s : State) : (mapBay b f s).bay b = f (s.bay b) :=
  Bays.get_set_same ..

theorem mapBay_bay_other {b c : BayId} (f : Bay → Bay) (s : State) (h : c ≠ b) : (mapBay b f s).bay c = s.bay c :=
  Bays.get_set_other _ _ h

theorem mapBay_bay (b c : BayId) (f : Bay → Bay) (s : State) :
    (mapBay b f s).bay c = if c = b then f (s.bay c) else s.bay c := by
  split
  · next h => subst h; exact mapBay_bay_same ..
  · next h => exact mapBay_bay_other f s h

/-- Two updates of a bay that give it the same value are one. -/
theorem mapBay_congr (b : BayId) (f g : Bay → Bay) (s : State) (h : f (s.bay b) = g (s.bay b)) : mapBay b f s = mapBay b g s := by
  have e : f (s.bays.get b) = g (s.bays.get b) := h
  simp only [mapBay, e]

theorem mapBay_mapBay (b : BayId) (f g : Bay → Bay) (s : State) : mapBay b f (mapBay b g s) = mapBay b (fun x => f (g x)) s := by
  cases b <;> rfl

theorem mapBay_eq_self (b : BayId) (f : Bay → Bay) (s : State) (h : f (s.bay b) = s.bay b) : mapBay b f s = s :=
  (mapBay_congr b f (fun x => x) s h).trans (by cases b <;> rfl)

/-! ## mapRecord -/

@[simp] theorem mapRecord_cell (b : BayId) (f : BayRecord → BayRecord) (s : State) : (mapRecord b f s).cell = s.cell := rfl
@[simp] theorem mapRecord_store (b : BayId) (f : BayRecord → BayRecord) (s : State) : (mapRecord b f s).store = s.store := rfl
@[simp] theorem mapRecord_reducer (b : BayId) (f : BayRecord → BayRecord) (s : State) : (mapRecord b f s).reducer = s.reducer := rfl
@[simp] theorem mapRecord_manifold (b : BayId) (f : BayRecord → BayRecord) (s : State) : (mapRecord b f s).manifold = s.manifold := rfl
@[simp] theorem mapRecord_reports (b : BayId) (f : BayRecord → BayRecord) (s : State) : (mapRecord b f s).reports = s.reports := rfl
@[simp] theorem mapRecord_ports (b : BayId) (f : BayRecord → BayRecord) (s : State) : (mapRecord b f s).ports = s.ports := rfl
@[simp] theorem mapRecord_pending (b : BayId) (f : BayRecord → BayRecord) (s : State) : (mapRecord b f s).pending = s.pending := rfl
@[simp] theorem mapRecord_now (b : BayId) (f : BayRecord → BayRecord) (s : State) : (mapRecord b f s).now = s.now := rfl

@[simp] theorem mapRecord_bay_same (b : BayId) (f : BayRecord → BayRecord) (s : State) :
    (mapRecord b f s).bay b = { s.bay b with record := f (s.bay b).record } := mapBay_bay_same ..

theorem mapRecord_bay_other {b c : BayId} (f : BayRecord → BayRecord) (s : State) (h : c ≠ b) : (mapRecord b f s).bay c = s.bay c :=
  mapBay_bay_other _ s h

theorem mapRecord_record_part (b c : BayId) (f : BayRecord → BayRecord) (s : State) :
    ((mapRecord b f s).bay c).record = if c = b then f (s.bay c).record else (s.bay c).record := by
  rw [mapRecord, mapBay_bay]; split <;> rfl

@[simp] theorem mapRecord_config (b c : BayId) (f : BayRecord → BayRecord) (s : State) : ((mapRecord b f s).bay c).config = (s.bay c).config := by
  rw [mapRecord, mapBay_bay]; split <;> rfl
@[simp] theorem mapRecord_drive (b c : BayId) (f : BayRecord → BayRecord) (s : State) : ((mapRecord b f s).bay c).drive = (s.bay c).drive := by
  rw [mapRecord, mapBay_bay]; split <;> rfl
@[simp] theorem mapRecord_sensor (b c : BayId) (f : BayRecord → BayRecord) (s : State) : ((mapRecord b f s).bay c).sensor = (s.bay c).sensor := by
  rw [mapRecord, mapBay_bay]; split <;> rfl
@[simp] theorem mapRecord_noise (b c : BayId) (f : BayRecord → BayRecord) (s : State) : ((mapRecord b f s).bay c).noise = (s.bay c).noise := by
  rw [mapRecord, mapBay_bay]; split <;> rfl
@[simp] theorem mapRecord_leak (b c : BayId) (f : BayRecord → BayRecord) (s : State) : ((mapRecord b f s).bay c).leak = (s.bay c).leak := by
  rw [mapRecord, mapBay_bay]; split <;> rfl
@[simp] theorem mapRecord_recordOf_same (b : BayId) (f : BayRecord → BayRecord) (s : State) :
    (mapRecord b f s).record b = f (s.record b) := by simp [State.record]

theorem mapRecord_recordOf_other {b c : BayId} (f : BayRecord → BayRecord) (s : State) (h : c ≠ b) :
    (mapRecord b f s).record c = s.record c := by simp [State.record, mapRecord_bay_other f s h]

theorem mapRecord_recordOf (b c : BayId) (f : BayRecord → BayRecord) (s : State) :
    (mapRecord b f s).record c = if c = b then f (s.record c) else s.record c := mapRecord_record_part b c f s

/-! ## mapDrive -/

@[simp] theorem mapDrive_cell (b : BayId) (f : DriveLink → DriveLink) (s : State) : (mapDrive b f s).cell = s.cell := rfl
@[simp] theorem mapDrive_store (b : BayId) (f : DriveLink → DriveLink) (s : State) : (mapDrive b f s).store = s.store := rfl
@[simp] theorem mapDrive_reducer (b : BayId) (f : DriveLink → DriveLink) (s : State) : (mapDrive b f s).reducer = s.reducer := rfl
@[simp] theorem mapDrive_manifold (b : BayId) (f : DriveLink → DriveLink) (s : State) : (mapDrive b f s).manifold = s.manifold := rfl
@[simp] theorem mapDrive_reports (b : BayId) (f : DriveLink → DriveLink) (s : State) : (mapDrive b f s).reports = s.reports := rfl
@[simp] theorem mapDrive_ports (b : BayId) (f : DriveLink → DriveLink) (s : State) : (mapDrive b f s).ports = s.ports := rfl
@[simp] theorem mapDrive_pending (b : BayId) (f : DriveLink → DriveLink) (s : State) : (mapDrive b f s).pending = s.pending := rfl
@[simp] theorem mapDrive_now (b : BayId) (f : DriveLink → DriveLink) (s : State) : (mapDrive b f s).now = s.now := rfl

@[simp] theorem mapDrive_bay_same (b : BayId) (f : DriveLink → DriveLink) (s : State) :
    (mapDrive b f s).bay b = { s.bay b with drive := f (s.bay b).drive } := mapBay_bay_same ..

theorem mapDrive_bay_other {b c : BayId} (f : DriveLink → DriveLink) (s : State) (h : c ≠ b) : (mapDrive b f s).bay c = s.bay c :=
  mapBay_bay_other _ s h

theorem mapDrive_drive_part (b c : BayId) (f : DriveLink → DriveLink) (s : State) :
    ((mapDrive b f s).bay c).drive = if c = b then f (s.bay c).drive else (s.bay c).drive := by
  rw [mapDrive, mapBay_bay]; split <;> rfl

@[simp] theorem mapDrive_config (b c : BayId) (f : DriveLink → DriveLink) (s : State) : ((mapDrive b f s).bay c).config = (s.bay c).config := by
  rw [mapDrive, mapBay_bay]; split <;> rfl
@[simp] theorem mapDrive_record (b c : BayId) (f : DriveLink → DriveLink) (s : State) : ((mapDrive b f s).bay c).record = (s.bay c).record := by
  rw [mapDrive, mapBay_bay]; split <;> rfl
@[simp] theorem mapDrive_sensor (b c : BayId) (f : DriveLink → DriveLink) (s : State) : ((mapDrive b f s).bay c).sensor = (s.bay c).sensor := by
  rw [mapDrive, mapBay_bay]; split <;> rfl
@[simp] theorem mapDrive_noise (b c : BayId) (f : DriveLink → DriveLink) (s : State) : ((mapDrive b f s).bay c).noise = (s.bay c).noise := by
  rw [mapDrive, mapBay_bay]; split <;> rfl
@[simp] theorem mapDrive_leak (b c : BayId) (f : DriveLink → DriveLink) (s : State) : ((mapDrive b f s).bay c).leak = (s.bay c).leak := by
  rw [mapDrive, mapBay_bay]; split <;> rfl
@[simp] theorem mapDrive_recordOf (b c : BayId) (f : DriveLink → DriveLink) (s : State) : (mapDrive b f s).record c = s.record c :=
  mapDrive_record b c f s

/-! ## mapSensor -/

@[simp] theorem mapSensor_cell (b : BayId) (f : SensorLink → SensorLink) (s : State) : (mapSensor b f s).cell = s.cell := rfl
@[simp] theorem mapSensor_store (b : BayId) (f : SensorLink → SensorLink) (s : State) : (mapSensor b f s).store = s.store := rfl
@[simp] theorem mapSensor_reducer (b : BayId) (f : SensorLink → SensorLink) (s : State) : (mapSensor b f s).reducer = s.reducer := rfl
@[simp] theorem mapSensor_manifold (b : BayId) (f : SensorLink → SensorLink) (s : State) : (mapSensor b f s).manifold = s.manifold := rfl
@[simp] theorem mapSensor_reports (b : BayId) (f : SensorLink → SensorLink) (s : State) : (mapSensor b f s).reports = s.reports := rfl
@[simp] theorem mapSensor_ports (b : BayId) (f : SensorLink → SensorLink) (s : State) : (mapSensor b f s).ports = s.ports := rfl
@[simp] theorem mapSensor_pending (b : BayId) (f : SensorLink → SensorLink) (s : State) : (mapSensor b f s).pending = s.pending := rfl
@[simp] theorem mapSensor_now (b : BayId) (f : SensorLink → SensorLink) (s : State) : (mapSensor b f s).now = s.now := rfl

@[simp] theorem mapSensor_bay_same (b : BayId) (f : SensorLink → SensorLink) (s : State) :
    (mapSensor b f s).bay b = { s.bay b with sensor := f (s.bay b).sensor } := mapBay_bay_same ..

theorem mapSensor_bay_other {b c : BayId} (f : SensorLink → SensorLink) (s : State) (h : c ≠ b) : (mapSensor b f s).bay c = s.bay c :=
  mapBay_bay_other _ s h

theorem mapSensor_sensor_part (b c : BayId) (f : SensorLink → SensorLink) (s : State) :
    ((mapSensor b f s).bay c).sensor = if c = b then f (s.bay c).sensor else (s.bay c).sensor := by
  rw [mapSensor, mapBay_bay]; split <;> rfl

@[simp] theorem mapSensor_config (b c : BayId) (f : SensorLink → SensorLink) (s : State) : ((mapSensor b f s).bay c).config = (s.bay c).config := by
  rw [mapSensor, mapBay_bay]; split <;> rfl
@[simp] theorem mapSensor_record (b c : BayId) (f : SensorLink → SensorLink) (s : State) : ((mapSensor b f s).bay c).record = (s.bay c).record := by
  rw [mapSensor, mapBay_bay]; split <;> rfl
@[simp] theorem mapSensor_drive (b c : BayId) (f : SensorLink → SensorLink) (s : State) : ((mapSensor b f s).bay c).drive = (s.bay c).drive := by
  rw [mapSensor, mapBay_bay]; split <;> rfl
@[simp] theorem mapSensor_noise (b c : BayId) (f : SensorLink → SensorLink) (s : State) : ((mapSensor b f s).bay c).noise = (s.bay c).noise := by
  rw [mapSensor, mapBay_bay]; split <;> rfl
@[simp] theorem mapSensor_leak (b c : BayId) (f : SensorLink → SensorLink) (s : State) : ((mapSensor b f s).bay c).leak = (s.bay c).leak := by
  rw [mapSensor, mapBay_bay]; split <;> rfl
@[simp] theorem mapSensor_recordOf (b c : BayId) (f : SensorLink → SensorLink) (s : State) : (mapSensor b f s).record c = s.record c :=
  mapSensor_record b c f s

/-! ## mapNoise -/

@[simp] theorem mapNoise_cell (b : BayId) (f : NoiseUnit → NoiseUnit) (s : State) : (mapNoise b f s).cell = s.cell := rfl
@[simp] theorem mapNoise_store (b : BayId) (f : NoiseUnit → NoiseUnit) (s : State) : (mapNoise b f s).store = s.store := rfl
@[simp] theorem mapNoise_reducer (b : BayId) (f : NoiseUnit → NoiseUnit) (s : State) : (mapNoise b f s).reducer = s.reducer := rfl
@[simp] theorem mapNoise_manifold (b : BayId) (f : NoiseUnit → NoiseUnit) (s : State) : (mapNoise b f s).manifold = s.manifold := rfl
@[simp] theorem mapNoise_reports (b : BayId) (f : NoiseUnit → NoiseUnit) (s : State) : (mapNoise b f s).reports = s.reports := rfl
@[simp] theorem mapNoise_ports (b : BayId) (f : NoiseUnit → NoiseUnit) (s : State) : (mapNoise b f s).ports = s.ports := rfl
@[simp] theorem mapNoise_pending (b : BayId) (f : NoiseUnit → NoiseUnit) (s : State) : (mapNoise b f s).pending = s.pending := rfl
@[simp] theorem mapNoise_now (b : BayId) (f : NoiseUnit → NoiseUnit) (s : State) : (mapNoise b f s).now = s.now := rfl

@[simp] theorem mapNoise_bay_same (b : BayId) (f : NoiseUnit → NoiseUnit) (s : State) :
    (mapNoise b f s).bay b = { s.bay b with noise := f (s.bay b).noise } := mapBay_bay_same ..

theorem mapNoise_bay_other {b c : BayId} (f : NoiseUnit → NoiseUnit) (s : State) (h : c ≠ b) : (mapNoise b f s).bay c = s.bay c :=
  mapBay_bay_other _ s h

theorem mapNoise_noise_part (b c : BayId) (f : NoiseUnit → NoiseUnit) (s : State) :
    ((mapNoise b f s).bay c).noise = if c = b then f (s.bay c).noise else (s.bay c).noise := by
  rw [mapNoise, mapBay_bay]; split <;> rfl

@[simp] theorem mapNoise_config (b c : BayId) (f : NoiseUnit → NoiseUnit) (s : State) : ((mapNoise b f s).bay c).config = (s.bay c).config := by
  rw [mapNoise, mapBay_bay]; split <;> rfl
@[simp] theorem mapNoise_record (b c : BayId) (f : NoiseUnit → NoiseUnit) (s : State) : ((mapNoise b f s).bay c).record = (s.bay c).record := by
  rw [mapNoise, mapBay_bay]; split <;> rfl
@[simp] theorem mapNoise_drive (b c : BayId) (f : NoiseUnit → NoiseUnit) (s : State) : ((mapNoise b f s).bay c).drive = (s.bay c).drive := by
  rw [mapNoise, mapBay_bay]; split <;> rfl
@[simp] theorem mapNoise_sensor (b c : BayId) (f : NoiseUnit → NoiseUnit) (s : State) : ((mapNoise b f s).bay c).sensor = (s.bay c).sensor := by
  rw [mapNoise, mapBay_bay]; split <;> rfl
@[simp] theorem mapNoise_leak (b c : BayId) (f : NoiseUnit → NoiseUnit) (s : State) : ((mapNoise b f s).bay c).leak = (s.bay c).leak := by
  rw [mapNoise, mapBay_bay]; split <;> rfl
@[simp] theorem mapNoise_recordOf (b c : BayId) (f : NoiseUnit → NoiseUnit) (s : State) : (mapNoise b f s).record c = s.record c :=
  mapNoise_record b c f s

/-! ## mapLeak -/

@[simp] theorem mapLeak_cell (b : BayId) (f : LeakUnit → LeakUnit) (s : State) : (mapLeak b f s).cell = s.cell := rfl
@[simp] theorem mapLeak_store (b : BayId) (f : LeakUnit → LeakUnit) (s : State) : (mapLeak b f s).store = s.store := rfl
@[simp] theorem mapLeak_reducer (b : BayId) (f : LeakUnit → LeakUnit) (s : State) : (mapLeak b f s).reducer = s.reducer := rfl
@[simp] theorem mapLeak_manifold (b : BayId) (f : LeakUnit → LeakUnit) (s : State) : (mapLeak b f s).manifold = s.manifold := rfl
@[simp] theorem mapLeak_reports (b : BayId) (f : LeakUnit → LeakUnit) (s : State) : (mapLeak b f s).reports = s.reports := rfl
@[simp] theorem mapLeak_ports (b : BayId) (f : LeakUnit → LeakUnit) (s : State) : (mapLeak b f s).ports = s.ports := rfl
@[simp] theorem mapLeak_pending (b : BayId) (f : LeakUnit → LeakUnit) (s : State) : (mapLeak b f s).pending = s.pending := rfl
@[simp] theorem mapLeak_now (b : BayId) (f : LeakUnit → LeakUnit) (s : State) : (mapLeak b f s).now = s.now := rfl

@[simp] theorem mapLeak_bay_same (b : BayId) (f : LeakUnit → LeakUnit) (s : State) :
    (mapLeak b f s).bay b = { s.bay b with leak := f (s.bay b).leak } := mapBay_bay_same ..

theorem mapLeak_bay_other {b c : BayId} (f : LeakUnit → LeakUnit) (s : State) (h : c ≠ b) : (mapLeak b f s).bay c = s.bay c :=
  mapBay_bay_other _ s h

theorem mapLeak_leak_part (b c : BayId) (f : LeakUnit → LeakUnit) (s : State) :
    ((mapLeak b f s).bay c).leak = if c = b then f (s.bay c).leak else (s.bay c).leak := by
  rw [mapLeak, mapBay_bay]; split <;> rfl

@[simp] theorem mapLeak_config (b c : BayId) (f : LeakUnit → LeakUnit) (s : State) : ((mapLeak b f s).bay c).config = (s.bay c).config := by
  rw [mapLeak, mapBay_bay]; split <;> rfl
@[simp] theorem mapLeak_record (b c : BayId) (f : LeakUnit → LeakUnit) (s : State) : ((mapLeak b f s).bay c).record = (s.bay c).record := by
  rw [mapLeak, mapBay_bay]; split <;> rfl
@[simp] theorem mapLeak_drive (b c : BayId) (f : LeakUnit → LeakUnit) (s : State) : ((mapLeak b f s).bay c).drive = (s.bay c).drive := by
  rw [mapLeak, mapBay_bay]; split <;> rfl
@[simp] theorem mapLeak_sensor (b c : BayId) (f : LeakUnit → LeakUnit) (s : State) : ((mapLeak b f s).bay c).sensor = (s.bay c).sensor := by
  rw [mapLeak, mapBay_bay]; split <;> rfl
@[simp] theorem mapLeak_noise (b c : BayId) (f : LeakUnit → LeakUnit) (s : State) : ((mapLeak b f s).bay c).noise = (s.bay c).noise := by
  rw [mapLeak, mapBay_bay]; split <;> rfl
@[simp] theorem mapLeak_recordOf (b c : BayId) (f : LeakUnit → LeakUnit) (s : State) : (mapLeak b f s).record c = s.record c :=
  mapLeak_record b c f s

/-! ## mapPort -/

@[simp] theorem mapPort_cell (p : PortId) (f : Port → Port) (s : State) : (mapPort p f s).cell = s.cell := rfl
@[simp] theorem mapPort_store (p : PortId) (f : Port → Port) (s : State) : (mapPort p f s).store = s.store := rfl
@[simp] theorem mapPort_bays (p : PortId) (f : Port → Port) (s : State) : (mapPort p f s).bays = s.bays := rfl
@[simp] theorem mapPort_reducer (p : PortId) (f : Port → Port) (s : State) : (mapPort p f s).reducer = s.reducer := rfl
@[simp] theorem mapPort_manifold (p : PortId) (f : Port → Port) (s : State) : (mapPort p f s).manifold = s.manifold := rfl
@[simp] theorem mapPort_reports (p : PortId) (f : Port → Port) (s : State) : (mapPort p f s).reports = s.reports := rfl
@[simp] theorem mapPort_pending (p : PortId) (f : Port → Port) (s : State) : (mapPort p f s).pending = s.pending := rfl
@[simp] theorem mapPort_now (p : PortId) (f : Port → Port) (s : State) : (mapPort p f s).now = s.now := rfl
@[simp] theorem mapPort_bay (p : PortId) (f : Port → Port) (s : State) (b : BayId) : (mapPort p f s).bay b = s.bay b := rfl
@[simp] theorem mapPort_record (p : PortId) (f : Port → Port) (s : State) (b : BayId) : (mapPort p f s).record b = s.record b := rfl

@[simp] theorem mapPort_port_same (p : PortId) (f : Port → Port) (s : State) : (mapPort p f s).port p = f (s.port p) :=
  Ports.get_set_same ..

theorem mapPort_port_other {p q : PortId} (f : Port → Port) (s : State) (h : q ≠ p) : (mapPort p f s).port q = s.port q :=
  Ports.get_set_other _ _ h

theorem mapPort_port (p q : PortId) (f : Port → Port) (s : State) :
    (mapPort p f s).port q = if q = p then f (s.port q) else s.port q := by
  split
  · next h => subst h; exact mapPort_port_same ..
  · next h => exact mapPort_port_other f s h

/-! ## raise, setCellState, setBayState, setOwner -/

@[simp] theorem raise_cell (n : Notice) (s : State) : (raise n s).cell = s.cell := rfl
@[simp] theorem raise_store (n : Notice) (s : State) : (raise n s).store = s.store := rfl
@[simp] theorem raise_bays (n : Notice) (s : State) : (raise n s).bays = s.bays := rfl
@[simp] theorem raise_reducer (n : Notice) (s : State) : (raise n s).reducer = s.reducer := rfl
@[simp] theorem raise_manifold (n : Notice) (s : State) : (raise n s).manifold = s.manifold := rfl
@[simp] theorem raise_reports (n : Notice) (s : State) : (raise n s).reports = s.reports := rfl
@[simp] theorem raise_pending (n : Notice) (s : State) : (raise n s).pending = s.pending := rfl
@[simp] theorem raise_now (n : Notice) (s : State) : (raise n s).now = s.now := rfl
@[simp] theorem raise_bay (n : Notice) (s : State) (b : BayId) : (raise n s).bay b = s.bay b := rfl
@[simp] theorem raise_record (n : Notice) (s : State) (b : BayId) : (raise n s).record b = s.record b := rfl

/-- A raise is offered to each port (R174). -/
@[simp] theorem raise_port (n : Notice) (s : State) (p : PortId) : (raise n s).port p = (s.port p).offer n := by
  cases p <;> rfl

@[simp] theorem setCellState_store (c : CellState) (s : State) : (setCellState c s).store = s.store := rfl
@[simp] theorem setCellState_bays (c : CellState) (s : State) : (setCellState c s).bays = s.bays := rfl
@[simp] theorem setCellState_reducer (c : CellState) (s : State) : (setCellState c s).reducer = s.reducer := rfl
@[simp] theorem setCellState_manifold (c : CellState) (s : State) : (setCellState c s).manifold = s.manifold := rfl
@[simp] theorem setCellState_reports (c : CellState) (s : State) : (setCellState c s).reports = s.reports := rfl
@[simp] theorem setCellState_pending (c : CellState) (s : State) : (setCellState c s).pending = s.pending := rfl
@[simp] theorem setCellState_cell (c : CellState) (s : State) : (setCellState c s).cell = { s.cell with state := c } := rfl
@[simp] theorem setCellState_bay (c : CellState) (s : State) (b : BayId) : (setCellState c s).bay b = s.bay b := rfl
@[simp] theorem setCellState_record (c : CellState) (s : State) (b : BayId) : (setCellState c s).record b = s.record b := rfl

@[simp] theorem setBayState_cell (b : BayId) (st : BayState) (s : State) : (setBayState b st s).cell = s.cell := rfl
@[simp] theorem setBayState_store (b : BayId) (st : BayState) (s : State) : (setBayState b st s).store = s.store := rfl
@[simp] theorem setBayState_reducer (b : BayId) (st : BayState) (s : State) : (setBayState b st s).reducer = s.reducer := rfl
@[simp] theorem setBayState_manifold (b : BayId) (st : BayState) (s : State) : (setBayState b st s).manifold = s.manifold := rfl
@[simp] theorem setBayState_reports (b : BayId) (st : BayState) (s : State) : (setBayState b st s).reports = s.reports := rfl
@[simp] theorem setBayState_pending (b : BayId) (st : BayState) (s : State) : (setBayState b st s).pending = s.pending := rfl
@[simp] theorem setBayState_now (b : BayId) (st : BayState) (s : State) : (setBayState b st s).now = s.now := rfl
@[simp] theorem setBayState_record_same (b : BayId) (st : BayState) (s : State) :
    (setBayState b st s).record b = { s.record b with state := st } := by simp [setBayState]

theorem setBayState_record_other {b c : BayId} (st : BayState) (s : State) (h : c ≠ b) : (setBayState b st s).record c = s.record c := by
  simp [setBayState, mapRecord_recordOf_other _ s h]

theorem setBayState_bay_other {b c : BayId} (st : BayState) (s : State) (h : c ≠ b) : (setBayState b st s).bay c = s.bay c := by
  simp [setBayState, mapRecord_bay_other _ s h]

@[simp] theorem setBayState_config (b c : BayId) (st : BayState) (s : State) : ((setBayState b st s).bay c).config = (s.bay c).config := by simp [setBayState]
@[simp] theorem setBayState_drive (b c : BayId) (st : BayState) (s : State) : ((setBayState b st s).bay c).drive = (s.bay c).drive := by simp [setBayState]
@[simp] theorem setBayState_sensor (b c : BayId) (st : BayState) (s : State) : ((setBayState b st s).bay c).sensor = (s.bay c).sensor := by simp [setBayState]
@[simp] theorem setBayState_noise (b c : BayId) (st : BayState) (s : State) : ((setBayState b st s).bay c).noise = (s.bay c).noise := by simp [setBayState]
@[simp] theorem setBayState_leak (b c : BayId) (st : BayState) (s : State) : ((setBayState b st s).bay c).leak = (s.bay c).leak := by simp [setBayState]

@[simp] theorem setOwner_cell (b : BayId) (o : Owner) (s : State) : (setOwner b o s).cell = s.cell := rfl
@[simp] theorem setOwner_store (b : BayId) (o : Owner) (s : State) : (setOwner b o s).store = s.store := rfl
@[simp] theorem setOwner_reducer (b : BayId) (o : Owner) (s : State) : (setOwner b o s).reducer = s.reducer := rfl
@[simp] theorem setOwner_manifold (b : BayId) (o : Owner) (s : State) : (setOwner b o s).manifold = s.manifold := rfl
@[simp] theorem setOwner_reports (b : BayId) (o : Owner) (s : State) : (setOwner b o s).reports = s.reports := rfl
@[simp] theorem setOwner_pending (b : BayId) (o : Owner) (s : State) : (setOwner b o s).pending = s.pending := rfl
@[simp] theorem setOwner_now (b : BayId) (o : Owner) (s : State) : (setOwner b o s).now = s.now := rfl
@[simp] theorem setOwner_record_same (b : BayId) (o : Owner) (s : State) :
    (setOwner b o s).record b = { s.record b with owner := o } := by simp [setOwner]

theorem setOwner_record_other {b c : BayId} (o : Owner) (s : State) (h : c ≠ b) : (setOwner b o s).record c = s.record c := by
  simp [setOwner, mapRecord_recordOf_other _ s h]

theorem setOwner_bay_other {b c : BayId} (o : Owner) (s : State) (h : c ≠ b) : (setOwner b o s).bay c = s.bay c := by
  simp [setOwner, mapRecord_bay_other _ s h]

@[simp] theorem setOwner_config (b c : BayId) (o : Owner) (s : State) : ((setOwner b o s).bay c).config = (s.bay c).config := by simp [setOwner]
@[simp] theorem setOwner_drive (b c : BayId) (o : Owner) (s : State) : ((setOwner b o s).bay c).drive = (s.bay c).drive := by simp [setOwner]
@[simp] theorem setOwner_sensor (b c : BayId) (o : Owner) (s : State) : ((setOwner b o s).bay c).sensor = (s.bay c).sensor := by simp [setOwner]
@[simp] theorem setOwner_noise (b c : BayId) (o : Owner) (s : State) : ((setOwner b o s).bay c).noise = (s.bay c).noise := by simp [setOwner]
@[simp] theorem setOwner_leak (b c : BayId) (o : Owner) (s : State) : ((setOwner b o s).bay c).leak = (s.bay c).leak := by simp [setOwner]

end Sys2Proof.Machine
end

