-- ==== Sys2Proof/Laws/Blocks.lean ====
section
/-! SUPPORT. What each shared operation on reports, buffers, the reducer and the manifold does, component by component. -/

set_option Elab.async false

namespace Sys2Proof.Machine

/-! ## Reports -/

@[simp] theorem backlogCheck_cell (s : State) : (backlogCheck s).cell = s.cell := by
  unfold backlogCheck; split <;> [split; skip] <;> rfl
@[simp] theorem backlogCheck_store (s : State) : (backlogCheck s).store = s.store := by
  unfold backlogCheck; split <;> [split; skip] <;> rfl
@[simp] theorem backlogCheck_bays (s : State) : (backlogCheck s).bays = s.bays := by
  unfold backlogCheck; split <;> [split; skip] <;> rfl
@[simp] theorem backlogCheck_reducer (s : State) : (backlogCheck s).reducer = s.reducer := by
  unfold backlogCheck; split <;> [split; skip] <;> rfl
@[simp] theorem backlogCheck_manifold (s : State) : (backlogCheck s).manifold = s.manifold := by
  unfold backlogCheck; split <;> [split; skip] <;> rfl
@[simp] theorem backlogCheck_pending (s : State) : (backlogCheck s).pending = s.pending := by
  unfold backlogCheck; split <;> [split; skip] <;> rfl
@[simp] theorem backlogCheck_bay (s : State) (b : BayId) : (backlogCheck s).bay b = s.bay b := by
  simp [State.bay]
@[simp] theorem backlogCheck_record (s : State) (b : BayId) : (backlogCheck s).record b = s.record b := by
  simp [State.record]

/-- The backlog check changes the mark alone among the reports (R162). -/
theorem backlogCheck_reports (s : State) : (backlogCheck s).reports =
    { s.reports with backlog := decide (s.cell.backlogThreshold ≤ s.reports.queue.length) } := by
  unfold backlogCheck
  split
  · next h =>
    split
    · next hb => cases hr : s.reports; simp_all
    · simp [h]
  · next h => simp [h]

/-- BACKLOG is raised exactly when the mark becomes set (R162). -/
theorem backlogCheck_ports (s : State) : (backlogCheck s).ports =
    if s.cell.backlogThreshold ≤ s.reports.queue.length ∧ s.reports.backlog = false then (raise .backlog s).ports else s.ports := by
  unfold backlogCheck
  split
  · next h => split <;> simp_all [raise]
  · next h => simp [h]

@[simp] theorem commit_cell (b : BayId) (rep : Report) (s : State) : (commit b rep s).cell = s.cell := by simp [commit]
@[simp] theorem commit_store (b : BayId) (rep : Report) (s : State) : (commit b rep s).store = s.store := by simp [commit]
@[simp] theorem commit_reducer (b : BayId) (rep : Report) (s : State) : (commit b rep s).reducer = s.reducer := by simp [commit]
@[simp] theorem commit_manifold (b : BayId) (rep : Report) (s : State) : (commit b rep s).manifold = s.manifold := by simp [commit]
@[simp] theorem commit_pending (b : BayId) (rep : Report) (s : State) : (commit b rep s).pending = s.pending := by simp [commit]

/-- A commit changes no field of a bay record besides the bay's report status (R155). -/
theorem commit_record (b c : BayId) (rep : Report) (s : State) :
    (commit b rep s).record c = if c = b then { s.record c with reportStatus := .committed } else s.record c := by
  simp only [commit, backlogCheck_record, raise_record, mapRecord_recordOf]
  rfl

theorem commit_bay_other {b c : BayId} (rep : Report) (s : State) (h : c ≠ b) : (commit b rep s).bay c = s.bay c := by
  simp only [commit, backlogCheck_bay, raise_bay, mapRecord_bay_other _ _ h]
  rfl

@[simp] theorem commit_config (b c : BayId) (rep : Report) (s : State) : ((commit b rep s).bay c).config = (s.bay c).config := by
  simp only [commit, backlogCheck_bay, raise_bay, mapRecord_config]; rfl
@[simp] theorem commit_drive (b c : BayId) (rep : Report) (s : State) : ((commit b rep s).bay c).drive = (s.bay c).drive := by
  simp only [commit, backlogCheck_bay, raise_bay, mapRecord_drive]; rfl
@[simp] theorem commit_sensor (b c : BayId) (rep : Report) (s : State) : ((commit b rep s).bay c).sensor = (s.bay c).sensor := by
  simp only [commit, backlogCheck_bay, raise_bay, mapRecord_sensor]; rfl
@[simp] theorem commit_noise (b c : BayId) (rep : Report) (s : State) : ((commit b rep s).bay c).noise = (s.bay c).noise := by
  simp only [commit, backlogCheck_bay, raise_bay, mapRecord_noise]; rfl
@[simp] theorem commit_leak (b c : BayId) (rep : Report) (s : State) : ((commit b rep s).bay c).leak = (s.bay c).leak := by
  simp only [commit, backlogCheck_bay, raise_bay, mapRecord_leak]; rfl

/-- What a commit does to the Report Queue (R155, R162). -/
theorem commit_reports (b : BayId) (rep : Report) (s : State) : (commit b rep s).reports =
    { queue := s.reports.queue ++ [{ rep with sequence := some s.reports.nextSequence }],
      nextSequence := nextSequenceOf s.reports.nextSequence, waiting := s.reports.waiting,
      backlog := decide (s.cell.backlogThreshold ≤ s.reports.queue.length + 1) } := by
  simp [commit, backlogCheck_reports]

@[simp] theorem handReport_cell (b : BayId) (rep : Report) (s : State) : (handReport b rep s).cell = s.cell := by
  unfold handReport; split <;> simp
@[simp] theorem handReport_store (b : BayId) (rep : Report) (s : State) : (handReport b rep s).store = s.store := by
  unfold handReport; split <;> simp
@[simp] theorem handReport_reducer (b : BayId) (rep : Report) (s : State) : (handReport b rep s).reducer = s.reducer := by
  unfold handReport; split <;> simp
@[simp] theorem handReport_manifold (b : BayId) (rep : Report) (s : State) : (handReport b rep s).manifold = s.manifold := by
  unfold handReport; split <;> simp
@[simp] theorem handReport_pending (b : BayId) (rep : Report) (s : State) : (handReport b rep s).pending = s.pending := by
  unfold handReport; split <;> simp

/-- The bay's report status becomes COMMITTED or WAITING by the occupancy found, and nothing else of any record changes (R154). -/
theorem handReport_record (b c : BayId) (rep : Report) (s : State) : (handReport b rep s).record c =
    if c = b then
      { s.record c with reportStatus := if s.reports.queue.length < Config.reportCapacity then .committed else .waiting }
    else s.record c := by
  unfold handReport
  split
  · exact commit_record b c rep s
  · rw [mapRecord_recordOf]; rfl

theorem handReport_bay_other {b c : BayId} (rep : Report) (s : State) (h : c ≠ b) : (handReport b rep s).bay c = s.bay c := by
  unfold handReport
  split
  · exact commit_bay_other rep s h
  · rw [mapRecord_bay_other _ _ h]; rfl

@[simp] theorem handReport_config (b c : BayId) (rep : Report) (s : State) : ((handReport b rep s).bay c).config = (s.bay c).config := by
  unfold handReport; split
  · simp
  · rw [mapRecord_config]; rfl
@[simp] theorem handReport_drive (b c : BayId) (rep : Report) (s : State) : ((handReport b rep s).bay c).drive = (s.bay c).drive := by
  unfold handReport; split
  · simp
  · rw [mapRecord_drive]; rfl
@[simp] theorem handReport_sensor (b c : BayId) (rep : Report) (s : State) : ((handReport b rep s).bay c).sensor = (s.bay c).sensor := by
  unfold handReport; split
  · simp
  · rw [mapRecord_sensor]; rfl
@[simp] theorem handReport_noise (b c : BayId) (rep : Report) (s : State) : ((handReport b rep s).bay c).noise = (s.bay c).noise := by
  unfold handReport; split
  · simp
  · rw [mapRecord_noise]; rfl
@[simp] theorem handReport_leak (b c : BayId) (rep : Report) (s : State) : ((handReport b rep s).bay c).leak = (s.bay c).leak := by
  unfold handReport; split
  · simp
  · rw [mapRecord_leak]; rfl

/-- What the Report Queue does with a report handed to it (R154). -/
theorem handReport_reports (b : BayId) (rep : Report) (s : State) : (handReport b rep s).reports =
    if s.reports.queue.length < Config.reportCapacity then (commit b rep s).reports
    else { s.reports with waiting := s.reports.waiting ++ [⟨b, rep⟩] } := by
  unfold handReport
  split <;> rfl

@[simp] theorem takeHead_cell (s : State) : (takeHead s).cell = s.cell := by
  simp only [takeHead]; split <;> simp
@[simp] theorem takeHead_store (s : State) : (takeHead s).store = s.store := by
  simp only [takeHead]; split <;> simp
@[simp] theorem takeHead_reducer (s : State) : (takeHead s).reducer = s.reducer := by
  simp only [takeHead]; split <;> simp
@[simp] theorem takeHead_manifold (s : State) : (takeHead s).manifold = s.manifold := by
  simp only [takeHead]; split <;> simp
@[simp] theorem takeHead_pending (s : State) : (takeHead s).pending = s.pending := by
  simp only [takeHead]; split <;> simp

/-- A TAKE changes a bay record only by the commit of the waiting head (R160). -/
theorem takeHead_record (s : State) (c : BayId) : (takeHead s).record c =
    if s.reports.waiting.head?.map (·.bay) = some c then { s.record c with reportStatus := .committed } else s.record c := by
  simp only [takeHead]
  split
  · next h => simp [h]; rfl
  · next w ws h =>
    refine (commit_record ..).trans ?_
    by_cases hc : c = w.bay
    · rw [if_pos hc, if_pos (by simp [h, hc])]; rfl
    · rw [if_neg hc, if_neg (by simp [h, Ne.symm hc])]; rfl

@[simp] theorem takeHead_config (s : State) (c : BayId) : ((takeHead s).bay c).config = (s.bay c).config := by
  simp only [takeHead]; split <;> simp <;> rfl
@[simp] theorem takeHead_drive (s : State) (c : BayId) : ((takeHead s).bay c).drive = (s.bay c).drive := by
  simp only [takeHead]; split <;> simp <;> rfl
@[simp] theorem takeHead_sensor (s : State) (c : BayId) : ((takeHead s).bay c).sensor = (s.bay c).sensor := by
  simp only [takeHead]; split <;> simp <;> rfl
@[simp] theorem takeHead_noise (s : State) (c : BayId) : ((takeHead s).bay c).noise = (s.bay c).noise := by
  simp only [takeHead]; split <;> simp <;> rfl
@[simp] theorem takeHead_leak (s : State) (c : BayId) : ((takeHead s).bay c).leak = (s.bay c).leak := by
  simp only [takeHead]; split <;> simp <;> rfl

/-- What a TAKE does to the Report Queue: the head leaves, and the head of the waiting list is committed if there is one (R160). -/
theorem takeHead_reports (s : State) : (takeHead s).reports =
    match s.reports.waiting with
    | [] => { s.reports with
        queue := s.reports.queue.drop 1, backlog := decide (s.cell.backlogThreshold ≤ (s.reports.queue.drop 1).length) }
    | w :: ws =>
      { queue := s.reports.queue.drop 1 ++ [{ w.report with sequence := some s.reports.nextSequence }],
        nextSequence := nextSequenceOf s.reports.nextSequence, waiting := ws,
        backlog := decide (s.cell.backlogThreshold ≤ (s.reports.queue.drop 1).length + 1) } := by
  simp only [takeHead]
  split
  · next h => simp [backlogCheck_reports, h]
  · next w ws h => simp [commit_reports, h]

/-! ## Buffers -/

@[simp] theorem NoiseUnit.get_set_same (n : NoiseUnit) (k : BufId) (x : ListenBuffer) : (n.set k x).get k = x := by
  cases k <;> rfl

theorem NoiseUnit.get_set_other (n : NoiseUnit) {k l : BufId} (x : ListenBuffer) (h : l ≠ k) : (n.set k x).get l = n.get l := by
  cases k <;> cases l <;> first | rfl | exact absurd rfl h

@[simp] theorem mapBuf_cell (b : BayId) (k : BufId) (f : ListenBuffer → ListenBuffer) (s : State) : (mapBuf b k f s).cell = s.cell := rfl
@[simp] theorem mapBuf_store (b : BayId) (k : BufId) (f : ListenBuffer → ListenBuffer) (s : State) : (mapBuf b k f s).store = s.store := rfl
@[simp] theorem mapBuf_reducer (b : BayId) (k : BufId) (f : ListenBuffer → ListenBuffer) (s : State) : (mapBuf b k f s).reducer = s.reducer := rfl
@[simp] theorem mapBuf_manifold (b : BayId) (k : BufId) (f : ListenBuffer → ListenBuffer) (s : State) : (mapBuf b k f s).manifold = s.manifold := rfl
@[simp] theorem mapBuf_reports (b : BayId) (k : BufId) (f : ListenBuffer → ListenBuffer) (s : State) : (mapBuf b k f s).reports = s.reports := rfl
@[simp] theorem mapBuf_ports (b : BayId) (k : BufId) (f : ListenBuffer → ListenBuffer) (s : State) : (mapBuf b k f s).ports = s.ports := rfl
@[simp] theorem mapBuf_pending (b : BayId) (k : BufId) (f : ListenBuffer → ListenBuffer) (s : State) : (mapBuf b k f s).pending = s.pending := rfl
@[simp] theorem mapBuf_config (b c : BayId) (k : BufId) (f : ListenBuffer → ListenBuffer) (s : State) :
    ((mapBuf b k f s).bay c).config = (s.bay c).config := by simp [mapBuf]
@[simp] theorem mapBuf_record (b c : BayId) (k : BufId) (f : ListenBuffer → ListenBuffer) (s : State) :
    ((mapBuf b k f s).bay c).record = (s.bay c).record := by simp [mapBuf]
@[simp] theorem mapBuf_drive (b c : BayId) (k : BufId) (f : ListenBuffer → ListenBuffer) (s : State) :
    ((mapBuf b k f s).bay c).drive = (s.bay c).drive := by simp [mapBuf]
@[simp] theorem mapBuf_sensor (b c : BayId) (k : BufId) (f : ListenBuffer → ListenBuffer) (s : State) :
    ((mapBuf b k f s).bay c).sensor = (s.bay c).sensor := by simp [mapBuf]
@[simp] theorem mapBuf_leak (b c : BayId) (k : BufId) (f : ListenBuffer → ListenBuffer) (s : State) :
    ((mapBuf b k f s).bay c).leak = (s.bay c).leak := by simp [mapBuf]
@[simp] theorem mapBuf_recordOf (b c : BayId) (k : BufId) (f : ListenBuffer → ListenBuffer) (s : State) :
    (mapBuf b k f s).record c = s.record c := mapBuf_record b c k f s

@[simp] theorem mapBuf_buf_same (b : BayId) (k : BufId) (f : ListenBuffer → ListenBuffer) (s : State) :
    (mapBuf b k f s).buf b k = f (s.buf b k) := by
  simp [State.buf, mapBuf]

/-- A change of one buffer leaves the seven others alone. -/
theorem mapBuf_buf (b c : BayId) (k l : BufId) (f : ListenBuffer → ListenBuffer) (s : State) :
    (mapBuf b k f s).buf c l = if c = b ∧ l = k then f (s.buf c l) else s.buf c l := by
  simp only [State.buf, mapBuf, mapNoise_noise_part]
  by_cases hc : c = b
  · subst hc
    by_cases hl : l = k
    · subst hl; simp
    · simp [hl, NoiseUnit.get_set_other _ _ hl]
  · simp [hc]

@[simp] theorem mapRecord_buf (b c : BayId) (l : BufId) (f : BayRecord → BayRecord) (s : State) :
    (mapRecord b f s).buf c l = s.buf c l := by simp [State.buf]

/-- Buffers depend on the noise units alone. -/
theorem buf_congr {s t : State} (h : ∀ b, (t.bay b).noise = (s.bay b).noise) (b : BayId) (k : BufId) : t.buf b k = s.buf b k := by
  simp [State.buf, h]

/-! ## The reducer -/

@[simp] theorem engineTake_cell (s : State) : (engineTake s).cell = s.cell := by unfold engineTake; split <;> rfl
@[simp] theorem engineTake_store (s : State) : (engineTake s).store = s.store := by unfold engineTake; split <;> rfl
@[simp] theorem engineTake_manifold (s : State) : (engineTake s).manifold = s.manifold := by unfold engineTake; split <;> rfl
@[simp] theorem engineTake_reports (s : State) : (engineTake s).reports = s.reports := by unfold engineTake; split <;> rfl
@[simp] theorem engineTake_ports (s : State) : (engineTake s).ports = s.ports := by unfold engineTake; split <;> rfl
@[simp] theorem engineTake_pending (s : State) : (engineTake s).pending = s.pending := by unfold engineTake; split <;> rfl
@[simp] theorem engineTake_config (s : State) (c : BayId) : ((engineTake s).bay c).config = (s.bay c).config := by
  unfold engineTake; split
  · rw [mapBuf_config]; rfl
  · rfl
@[simp] theorem engineTake_record (s : State) (c : BayId) : ((engineTake s).bay c).record = (s.bay c).record := by
  unfold engineTake; split
  · rw [mapBuf_record]; rfl
  · rfl
@[simp] theorem engineTake_drive (s : State) (c : BayId) : ((engineTake s).bay c).drive = (s.bay c).drive := by
  unfold engineTake; split
  · rw [mapBuf_drive]; rfl
  · rfl
@[simp] theorem engineTake_sensor (s : State) (c : BayId) : ((engineTake s).bay c).sensor = (s.bay c).sensor := by
  unfold engineTake; split
  · rw [mapBuf_sensor]; rfl
  · rfl
@[simp] theorem engineTake_leak (s : State) (c : BayId) : ((engineTake s).bay c).leak = (s.bay c).leak := by
  unfold engineTake; split
  · rw [mapBuf_leak]; rfl
  · rfl
@[simp] theorem engineTake_recordOf (s : State) (c : BayId) : (engineTake s).record c = s.record c := engineTake_record s c

@[simp] theorem joinReducer_cell (b : BayId) (k : BufId) (s : State) : (joinReducer b k s).cell = s.cell := rfl
@[simp] theorem joinReducer_store (b : BayId) (k : BufId) (s : State) : (joinReducer b k s).store = s.store := rfl
@[simp] theorem joinReducer_manifold (b : BayId) (k : BufId) (s : State) : (joinReducer b k s).manifold = s.manifold := rfl
@[simp] theorem joinReducer_reports (b : BayId) (k : BufId) (s : State) : (joinReducer b k s).reports = s.reports := rfl
@[simp] theorem joinReducer_ports (b : BayId) (k : BufId) (s : State) : (joinReducer b k s).ports = s.ports := rfl
@[simp] theorem joinReducer_pending (b : BayId) (k : BufId) (s : State) : (joinReducer b k s).pending = s.pending := rfl

theorem joinReducer_record (b c : BayId) (k : BufId) (s : State) : (joinReducer b k s).record c =
    if c = b then { s.record c with pendingReductions := (s.record c).pendingReductions + 1 } else s.record c := by
  show (mapRecord b (fun r => { r with pendingReductions := r.pendingReductions + 1 }) (mapBuf b k (fun x => { x with state := .queued, acquisitionStart := none }) s)).record c = _
  rw [mapRecord_recordOf, mapBuf_recordOf]

theorem joinReducer_buf (b c : BayId) (k l : BufId) (s : State) : (joinReducer b k s).buf c l =
    if c = b ∧ l = k then { s.buf c l with state := .queued, acquisitionStart := none } else s.buf c l := by
  show (mapRecord b (fun r => { r with pendingReductions := r.pendingReductions + 1 }) (mapBuf b k (fun x => { x with state := .queued, acquisitionStart := none }) s)).buf c l = _
  rw [mapRecord_buf, mapBuf_buf]

@[simp] theorem joinReducer_reducer (b : BayId) (k : BufId) (s : State) :
    (joinReducer b k s).reducer = { s.reducer with queue := s.reducer.queue ++ [(b, k)] } := rfl

@[simp] theorem freeReduced_cell (j : EngineJob) (s : State) : (freeReduced j s).cell = s.cell := rfl
@[simp] theorem freeReduced_store (j : EngineJob) (s : State) : (freeReduced j s).store = s.store := rfl
@[simp] theorem freeReduced_manifold (j : EngineJob) (s : State) : (freeReduced j s).manifold = s.manifold := rfl
@[simp] theorem freeReduced_reports (j : EngineJob) (s : State) : (freeReduced j s).reports = s.reports := rfl
@[simp] theorem freeReduced_ports (j : EngineJob) (s : State) : (freeReduced j s).ports = s.ports := rfl
@[simp] theorem freeReduced_pending (j : EngineJob) (s : State) : (freeReduced j s).pending = s.pending := rfl

theorem freeReduced_record (j : EngineJob) (c : BayId) (s : State) : (freeReduced j s).record c =
    if c = j.bay then { s.record c with pendingReductions := (s.record c).pendingReductions - 1 } else s.record c := by
  show (mapRecord j.bay (fun r => { r with pendingReductions := r.pendingReductions - 1 }) (mapBuf j.bay j.buf ListenBuffer.freed s)).record c = _
  rw [mapRecord_recordOf, mapBuf_recordOf]

theorem freeReduced_buf (j : EngineJob) (c : BayId) (l : BufId) (s : State) : (freeReduced j s).buf c l =
    if c = j.bay ∧ l = j.buf then (s.buf c l).freed else s.buf c l := by
  show (mapRecord j.bay (fun r => { r with pendingReductions := r.pendingReductions - 1 }) (mapBuf j.bay j.buf ListenBuffer.freed s)).buf c l = _
  rw [mapRecord_buf, mapBuf_buf]

@[simp] theorem freeReduced_reducer (j : EngineJob) (s : State) : (freeReduced j s).reducer = { s.reducer with engine := none } := rfl

@[simp] theorem cancelBuffer_cell (b : BayId) (k : BufId) (s : State) : (cancelBuffer b k s).cell = s.cell := by
  unfold cancelBuffer; split <;> rfl
@[simp] theorem cancelBuffer_store (b : BayId) (k : BufId) (s : State) : (cancelBuffer b k s).store = s.store := by
  unfold cancelBuffer; split <;> rfl
@[simp] theorem cancelBuffer_manifold (b : BayId) (k : BufId) (s : State) : (cancelBuffer b k s).manifold = s.manifold := by
  unfold cancelBuffer; split <;> rfl
@[simp] theorem cancelBuffer_reports (b : BayId) (k : BufId) (s : State) : (cancelBuffer b k s).reports = s.reports := by
  unfold cancelBuffer; split <;> rfl
@[simp] theorem cancelBuffer_ports (b : BayId) (k : BufId) (s : State) : (cancelBuffer b k s).ports = s.ports := by
  unfold cancelBuffer; split <;> rfl
@[simp] theorem cancelBuffer_pending (b : BayId) (k : BufId) (s : State) : (cancelBuffer b k s).pending = s.pending := by
  unfold cancelBuffer; split <;> rfl

theorem cancelBuffer_record (b c : BayId) (k : BufId) (s : State) : (cancelBuffer b k s).record c =
    if c = b ∧ (s.buf b k).state = .queued then { s.record c with pendingReductions := (s.record c).pendingReductions - 1 }
    else s.record c := by
  unfold cancelBuffer
  split
  · next h =>
    show (mapRecord b (fun r => { r with pendingReductions := r.pendingReductions - 1 }) (mapBuf b k ListenBuffer.freed s)).record c = _
    simp [mapRecord_recordOf, h]
  · next h => simp [h]
  · next h h' => rw [if_neg (fun e => h e.2)]

/-- A QUEUED buffer becomes FREE, a REDUCING one is marked for discard, and every other buffer stays as it is (R123, R124). -/
theorem cancelBuffer_buf (b c : BayId) (k l : BufId) (s : State) : (cancelBuffer b k s).buf c l =
    if c = b ∧ l = k then
      match (s.buf b k).state with
      | .queued => (s.buf b k).freed
      | .reducing => { s.buf b k with discard := true }
      | _ => s.buf b k
    else s.buf c l := by
  unfold cancelBuffer
  split
  · next h =>
    show (mapRecord b (fun r => { r with pendingReductions := r.pendingReductions - 1 }) (mapBuf b k ListenBuffer.freed s)).buf c l = _
    rw [mapRecord_buf, mapBuf_buf]
    by_cases hc : c = b ∧ l = k
    · obtain ⟨rfl, rfl⟩ := hc; simp [h]
    · simp [hc]
  · next h =>
    rw [mapBuf_buf]
    by_cases hc : c = b ∧ l = k
    · obtain ⟨rfl, rfl⟩ := hc; simp [h]
    · simp [hc]
  · next h h' =>
    by_cases hc : c = b ∧ l = k
    · obtain ⟨rfl, rfl⟩ := hc; split <;> simp_all
    · simp [hc]

theorem cancelBuffer_reducer (b : BayId) (k : BufId) (s : State) : (cancelBuffer b k s).reducer =
    if (s.buf b k).state = .queued then { s.reducer with queue := s.reducer.queue.filter (· ≠ (b, k)) } else s.reducer := by
  unfold cancelBuffer
  split
  · next h => rw [if_pos h]; rfl
  · next h => rw [h]; rfl
  · next h h' => rw [if_neg h]

/-! ## The manifold's lines -/

@[simp] theorem setFill_manifold (b : BayId) (v : Bool) (s : State) : (setFill b v s).manifold = s.manifold := rfl

theorem setFill_record (b c : BayId) (v : Bool) (s : State) : (setFill b v s).record c =
    if c = b then { s.record c with lines := { (s.record c).lines with fill := v } } else s.record c :=
  mapRecord_recordOf ..

@[simp] theorem sequencerLines_fill (m : FunctionMap) (st : BayState) (ph : LeakPhase) (l : ActuatorLines) :
    (sequencerLines m st ph l).fill = l.fill := rfl

/-! ## Power-on reset and the timers -/

theorem powerOn_record (s : State) (b : BayId) : (powerOn s).record b = { BayRecord.reset with inputs := (s.record b).inputs } := by
  cases b <;> rfl

theorem powerOn_buf (s : State) (b : BayId) (k : BufId) : (powerOn s).buf b k = ListenBuffer.reset := by
  cases b <;> cases k <;> rfl

@[simp] theorem powerOn_cell (s : State) : (powerOn s).cell = CellControl.reset := rfl
@[simp] theorem powerOn_store (s : State) : (powerOn s).store = PlanStore.reset := rfl
@[simp] theorem powerOn_manifold (s : State) : (powerOn s).manifold = State.reset.manifold := rfl
@[simp] theorem powerOn_reducer (s : State) : (powerOn s).reducer = State.reset.reducer := rfl
@[simp] theorem powerOn_reports (s : State) : (powerOn s).reports = State.reset.reports := rfl
@[simp] theorem powerOn_ports (s : State) : (powerOn s).ports = Ports.reset := rfl
@[simp] theorem powerOn_pending (s : State) : (powerOn s).pending = s.pending := rfl

@[simp] theorem Port.tick_notices (p : Port) : p.tick.notices = p.notices := rfl
@[simp] theorem Port.tick_quietTimer (p : Port) : p.tick.quietTimer = p.quietTimer - 1 := rfl

/-- After a millisecond the line is asserted exactly with pairs pending and the timer expired (R178). -/
theorem Port.tick_ntf (p : Port) : p.tick.ntf = true ↔ p.notices ≠ [] ∧ p.quietTimer ≤ 1 := by
  simp [Port.tick, Port.refreshNtf, Nat.sub_eq_zero_iff_le]

/-- A millisecond empties the windows whose silence count it brings to 65,535, and moves the counts and loss timers (R100, R105). -/
theorem SensorLink.tick_eq (l : SensorLink) : l.tick =
    { l.count with
      pressure := if l.count.pressureSilence = 65535 then [] else l.pressure
      temperature := if l.count.temperatureSilence = 65535 then [] else l.temperature } := by
  unfold SensorLink.tick
  simp only [SensorLink.purge]
  split <;> split <;> simp_all [SensorLink.count]

@[simp] theorem portTick_port (s : State) (p : PortId) : (portTick s).port p = (s.port p).tick := by
  cases p <;> rfl

end Sys2Proof.Machine
end

