-- ==== Sys2Proof/Laws/Changes.lean ====
section
/-! SUPPORT. What a step can do, said once: every command and event is a run of the small changes of `Change`, each with what it
leaves alone. An invariant that every small change keeps is kept by every step. -/

set_option Elab.async false

namespace Sys2Proof.Machine

/-- One small change of the state. -/
inductive Change : State → State → Prop where
  | clock (t : Time) (s : State) : Change s { s with cell := { s.cell with time := t } }
  | cellState (c : CellState) (s : State) : Change s { s with cell := { s.cell with state := c } }
  | settings (ramp threshold : Nat) (s : State) : Change s { s with cell :=
      { s.cell with stopRamp := clampNat 100 2000 ramp, backlogThreshold := clampNat 1 16 threshold } }
  | notice (n : Notice) (s : State) : Change s (raise n s)
  /-- A change of a bay record that leaves its FILL line and its pending reduction count alone. -/
  | record (b : BayId) (f : BayRecord → BayRecord) (s : State)
      (hFill : ∀ r, (f r).lines.fill = r.lines.fill) (hCount : ∀ r, (f r).pendingReductions = r.pendingReductions) :
      Change s (mapRecord b f s)
  | config (b : BayId) (c : BayConfig) (s : State) : Change s (mapBay b (fun x => { x with config := c }) s)
  | drive (b : BayId) (f : DriveLink → DriveLink) (s : State) : Change s (mapDrive b f s)
  | sensor (b : BayId) (f : SensorLink → SensorLink) (s : State) : Change s (mapSensor b f s)
  | leak (b : BayId) (f : LeakUnit → LeakUnit) (s : State) : Change s (mapLeak b f s)
  /-- A change of the row in progress. -/
  | row (b : BayId) (f : NoiseUnit → NoiseUnit) (s : State) (hA0 : ∀ n, (f n).a0 = n.a0) (hA1 : ∀ n, (f n).a1 = n.a1) :
      Change s (mapNoise b f s)
  /-- A change of a buffer's contents that leaves its state alone. -/
  | content (b : BayId) (k : BufId) (f : ListenBuffer → ListenBuffer) (s : State) (h : ∀ x, (f x).state = x.state) :
      Change s (mapBuf b k f s)
  /-- A FREE or ACQUIRING buffer becomes ACQUIRING or FREE. -/
  | acquisition (b : BayId) (k : BufId) (f : ListenBuffer → ListenBuffer) (s : State)
      (hOld : (s.buf b k).state = .free ∨ (s.buf b k).state = .acquiring)
      (hNew : ∀ x, (f x).state = .free ∨ (f x).state = .acquiring) : Change s (mapBuf b k f s)
  | enqueue (b : BayId) (k : BufId) (s : State) (h : (s.buf b k).state = .acquiring) : Change s (joinReducer b k s)
  | engine (s : State) : Change s (engineTake s)
  | cancel (b : BayId) (k : BufId) (s : State) : Change s (cancelBuffer b k s)
  | reduced (j : EngineJob) (s : State) (h : s.reducer.engine = some j) : Change s (freeReduced j s)
  | request (b : BayId) (s : State) : Change s { s with manifold := { s.manifold with queue := s.manifold.queue ++ [b] } }
  | withdraw (b : BayId) (s : State) :
      Change s { s with manifold := { s.manifold with queue := s.manifold.queue.filter (· ≠ b) } }
  | grant (b : BayId) (rest : List BayId) (s : State) (hFree : s.manifold.granted = none) (hHead : s.manifold.queue = b :: rest) :
      Change s (setFill b true { s with manifold := { granted := some b, queue := rest } })
  | release (b : BayId) (s : State) (h : s.manifold.granted = some b) :
      Change s (setFill b false { s with manifold := { s.manifold with granted := none } })
  | hand (b : BayId) (rep : Report) (s : State) : Change s (handReport b rep s)
  | take (s : State) (h : s.reports.queue ≠ []) : Change s (takeHead s)
  /-- A change of step slots and directory. -/
  | plans (st : PlanStore) (s : State) (hVariants : st.variants = s.store.variants) (hCommon : st.common = s.store.common) :
      Change s { s with store := st }
  | variant (v : VariantEntry) (s : State) (hCode : isVariantCode v.code = true)
      (hRoom : (s.store.variant v.code).isSome ∨ s.store.variants.length < Config.variantCapacity) :
      Change s { s with store := { s.store with variants := insertVariant v s.store.variants } }
  | unvariant (code : Nat) (s : State) :
      Change s { s with store := { s.store with variants := s.store.variants.filter (·.code ≠ code) } }
  | common (i : Nat) (v : Int) (s : State) : Change s { s with store := s.store.setCommon i (storedCell i v) }
  | audit (i : Nat) (s : State) : Change s { s with store := (s.store.auditDecrement i).2 }
  | tables (s : State) : Change s { s with store := s.store.cleared }
  /-- A change of a port that leaves its notices alone. -/
  | port (p : PortId) (f : Port → Port) (s : State) (hNotices : ∀ x, (f x).notices = x.notices) (hMask : ∀ x, (f x).mask = x.mask)
      (hInterval : ∀ x, (f x).interval = x.interval) (hTimer : ∀ x, (f x).quietTimer = x.quietTimer)
      (hNtf : ∀ x, (f x).ntf = x.ntf) : Change s (mapPort p f s)
  | readNotice (p : PortId) (n : Notice) (rest : List Notice) (s : State) (h : (s.port p).notices = n :: rest) :
      Change s (mapPort p (Port.dropNotice rest) s)
  | mask (p : PortId) (m : BitVec 10) (s : State) : Change s (mapPort p (Port.setMask m) s)
  | interval (p : PortId) (ms : Nat) (s : State) : Change s (mapPort p (fun x => { x with interval := clampNat 0 1000 ms }) s)
  | timers (s : State) : Change s (portTick s)
  | timerEnd (p : PortId) (s : State) : Change s (mapPort p Port.quietExpired s)
  | reset (s : State) : Change s (powerOn s)

/-- A run of small changes. -/
abbrev Changes : State → State → Prop := Relation.ReflTransGen Change

theorem Change.run {s t : State} (h : Change s t) : Changes s t := .single h

theorem Changes.trans {s t u : State} (h : Changes s t) (h' : Changes t u) : Changes s u := Relation.ReflTransGen.trans h h'

/-- What every small change keeps, a run of them keeps. -/
theorem Changes.keep {P : State → Prop} (hP : ∀ s t, Change s t → P s → P t) {s t : State} (h : Changes s t) (hs : P s) : P t := by
  induction h with
  | refl => exact hs
  | tail _ hc ih => exact hP _ _ hc ih

/-! ## The shared operations -/

theorem raise_changes (n : Notice) (s : State) : Changes s (raise n s) := (Change.notice n s).run

theorem mapRecord_changes (b : BayId) (f : BayRecord → BayRecord) (s : State)
    (hFill : ∀ r, (f r).lines.fill = r.lines.fill := by intros; rfl)
    (hCount : ∀ r, (f r).pendingReductions = r.pendingReductions := by intros; rfl) : Changes s (mapRecord b f s) :=
  (Change.record b f s hFill hCount).run

theorem mapDrive_changes (b : BayId) (f : DriveLink → DriveLink) (s : State) : Changes s (mapDrive b f s) :=
  (Change.drive b f s).run

theorem mapSensor_changes (b : BayId) (f : SensorLink → SensorLink) (s : State) : Changes s (mapSensor b f s) :=
  (Change.sensor b f s).run

theorem mapLeak_changes (b : BayId) (f : LeakUnit → LeakUnit) (s : State) : Changes s (mapLeak b f s) :=
  (Change.leak b f s).run

theorem setCellState_changes (c : CellState) (s : State) : Changes s (setCellState c s) :=
  (Change.cellState c s).run.trans (raise_changes ..)

theorem setBayState_changes (b : BayId) (st : BayState) (s : State) : Changes s (setBayState b st s) :=
  (mapRecord_changes b _ s).trans (raise_changes ..)

theorem setOwner_changes (b : BayId) (o : Owner) (s : State) : Changes s (setOwner b o s) :=
  (mapRecord_changes b _ s).trans (raise_changes ..)

theorem setPhase_changes (b : BayId) (ph : StepPhase) (s : State) : Changes s (setPhase b ph s) := mapRecord_changes b _ s

theorem postResult_changes (b : BayId) (res : Result) (s : State) : Changes s (postResult b res s) := by
  unfold postResult
  split
  · exact mapRecord_changes b _ s
  · exact .refl

theorem refreshLines_changes (b : BayId) (s : State) : Changes s (refreshLines b s) := by
  simp only [refreshLines]
  split
  · exact mapRecord_changes b _ s
  · exact .refl

theorem plans_changes (st : PlanStore) (s : State) (hv : st.variants = s.store.variants) (hc : st.common = s.store.common) :
    Changes s { s with store := st } := (Change.plans st s hv hc).run

@[simp] theorem PlanStore.setEntry_variants (st : PlanStore) (n : Nat) (e : PlanEntry) : (st.setEntry n e).variants = st.variants := by
  unfold PlanStore.setEntry; split <;> rfl

@[simp] theorem PlanStore.setEntry_common (st : PlanStore) (n : Nat) (e : PlanEntry) : (st.setEntry n e).common = st.common := by
  unfold PlanStore.setEntry; split <;> rfl

@[simp] theorem PlanStore.emptyPlan_variants (st : PlanStore) (n : Nat) : (st.emptyPlan n).variants = st.variants := by
  simp [PlanStore.emptyPlan, PlanStore.freeSlots]

@[simp] theorem PlanStore.emptyPlan_common (st : PlanStore) (n : Nat) : (st.emptyPlan n).common = st.common := by
  simp [PlanStore.emptyPlan, PlanStore.freeSlots]

theorem takeReference_changes (n : Nat) (s : State) : Changes s (takeReference n s) :=
  plans_changes _ s (by simp) (by simp)

theorem releaseReference_changes (plan : Option Nat) (s : State) : Changes s (releaseReference plan s) := by
  unfold releaseReference
  split
  · exact .refl
  · simp only
    split
    · exact (plans_changes _ s (by simp) (by simp)).trans (raise_changes ..)
    · exact plans_changes _ s (by simp) (by simp)

theorem cellStopCheck_changes (s : State) : Changes s (cellStopCheck s) := by
  unfold cellStopCheck
  split
  · exact setCellState_changes ..
  · exact .refl

/-! ## Noise and manifold -/

theorem engineTake_changes (s : State) : Changes s (engineTake s) := (Change.engine s).run

theorem cancelReductions_changes (b : BayId) (s : State) : Changes s (cancelReductions b s) :=
  (Change.cancel b .a0 s).run.trans (Change.cancel b .a1 _).run

theorem rowIdle_changes (b : BayId) (s : State) : Changes s (mapNoise b NoiseUnit.rowIdle s) :=
  (Change.row b NoiseUnit.rowIdle s (fun _ => rfl) (fun _ => rfl)).run

theorem rowHunting_changes (b : BayId) (s : State) : Changes s (mapNoise b NoiseUnit.rowHunting s) :=
  (Change.row b NoiseUnit.rowHunting s (fun _ => rfl) (fun _ => rfl)).run

theorem row_changes (b : BayId) (f : NoiseUnit → NoiseUnit) (s : State)
    (hA0 : ∀ n, (f n).a0 = n.a0 := by intros; rfl) (hA1 : ∀ n, (f n).a1 = n.a1 := by intros; rfl) :
    Changes s (mapNoise b f s) := (Change.row b f s hA0 hA1).run

theorem content_changes (b : BayId) (k : BufId) (f : ListenBuffer → ListenBuffer) (s : State)
    (h : ∀ x, (f x).state = x.state := by intros; rfl) : Changes s (mapBuf b k f s) := (Change.content b k f s h).run

theorem NoiseUnit.get_find {n : NoiseUnit} {st : BufState} {k : BufId} (h : n.find st = some k) : (n.get k).state = st := by
  unfold NoiseUnit.find at h
  split at h
  · next h0 => cases h; exact h0
  · split at h
    · next h1 => cases h; exact h1
    · cases h

theorem mapNoise_congr (b : BayId) {f g : NoiseUnit → NoiseUnit} (s : State) (h : f (s.bay b).noise = g (s.bay b).noise) :
    mapNoise b f s = mapNoise b g s := by
  unfold mapNoise mapBay
  simp only [State.bay] at h
  simp only [h]

theorem mapNoise_mapNoise (b : BayId) (f g : NoiseUnit → NoiseUnit) (s : State) :
    mapNoise b g (mapNoise b f s) = mapNoise b (fun n => g (f n)) s := by
  cases b <;> rfl

/-- A buffer moves between FREE and ACQUIRING and the row state follows. -/
theorem moveBuffer_changes (b : BayId) (k : BufId) (f : ListenBuffer → ListenBuffer) (g : NoiseUnit → NoiseUnit) (s : State)
    (hOld : (s.buf b k).state = .free ∨ (s.buf b k).state = .acquiring)
    (hNew : ∀ x, (f x).state = .free ∨ (f x).state = .acquiring) (hA0 : ∀ n, (g n).a0 = n.a0) (hA1 : ∀ n, (g n).a1 = n.a1) :
    Changes s (mapNoise b (fun n => g (n.set k (f (n.get k)))) s) := by
  rw [← mapNoise_mapNoise b (fun n => n.set k (f (n.get k))) g]
  exact (Change.acquisition b k f s hOld hNew).run.trans (Change.row b g _ hA0 hA1).run

theorem stopAcquisition_changes (b : BayId) (s : State) : Changes s (stopAcquisition b s) := by
  unfold stopAcquisition
  cases h : (s.bay b).noise.find .acquiring with
  | none =>
    rw [mapNoise_congr (g := NoiseUnit.rowIdle) b s (by simp only [h])]
    exact rowIdle_changes b s
  | some k =>
    rw [mapNoise_congr (g := fun n => (n.set k (n.get k).freed).rowIdle) b s (by simp only [h])]
    exact moveBuffer_changes b k ListenBuffer.freed NoiseUnit.rowIdle s (.inr (NoiseUnit.get_find h)) (fun _ => .inl rfl)
      (fun _ => rfl) (fun _ => rfl)

theorem enterLeakPhase_changes (b : BayId) (ph : LeakPhase) (start : Option Time) (s : State) :
    Changes s (enterLeakPhase b ph start s) :=
  ((mapLeak_changes b _ s).trans (mapRecord_changes b _ _)).trans (refreshLines_changes ..)

theorem enterFill_changes (b : BayId) (s : State) : Changes s (enterFill b s) :=
  (mapLeak_changes b _ s).trans (enterLeakPhase_changes ..)

theorem grantHead_changes (s : State) : Changes s (grantHead s) := by
  unfold grantHead
  split
  · next b rest hFree hHead => exact (Change.grant b rest s hFree hHead).run.trans (enterFill_changes ..)
  · exact .refl

theorem requestManifold_changes (b : BayId) (s : State) : Changes s (requestManifold b s) :=
  (Change.request b s).run.trans (grantHead_changes _)

theorem releaseManifold_changes (b : BayId) (s : State) : Changes s (releaseManifold b s) := by
  unfold releaseManifold
  split
  · next h => exact (Change.release b s h).run.trans (grantHead_changes _)
  · exact .refl

theorem withdrawManifold_changes (b : BayId) (s : State) : Changes s (withdrawManifold b s) :=
  (Change.withdraw b s).run.trans (releaseManifold_changes ..)

theorem endLeak_changes (b : BayId) (s : State) : Changes s (endLeak b s) :=
  (mapLeak_changes b _ s).trans (withdrawManifold_changes ..)

theorem postLeak_changes (b : BayId) (v : Verdict) (cause : Option Cause) (value1 value2 : Int) (s : State) :
    Changes s (postLeak b v cause value1 value2 s) := by
  unfold postLeak
  split
  · exact .refl
  · exact (postResult_changes ..).trans (mapLeak_changes ..)

theorem enterVent_changes (b : BayId) (s : State) : Changes s (enterVent b s) := enterLeakPhase_changes ..

theorem enterMeasure_changes (b : BayId) (s : State) : Changes s (enterMeasure b s) := by
  simp only [enterMeasure]
  split
  · exact (enterLeakPhase_changes ..).trans (mapLeak_changes ..)
  · exact ((enterLeakPhase_changes ..).trans (postLeak_changes ..)).trans (enterVent_changes ..)

theorem enterSettle_changes (b : BayId) (s : State) : Changes s (enterSettle b s) := by
  simp only [enterSettle]
  split
  · exact (enterLeakPhase_changes ..).trans (enterMeasure_changes ..)
  · exact enterLeakPhase_changes ..

theorem enterFillWait_changes (b : BayId) (s : State) : Changes s (enterFillWait b s) :=
  (enterLeakPhase_changes ..).trans (requestManifold_changes ..)

theorem askAmbient_changes (b : BayId) (s : State) : Changes s (askAmbient b s) := by
  simp only [askAmbient]
  split
  · exact (mapLeak_changes ..).trans (enterFillWait_changes ..)
  · exact .refl

theorem enterAmbient_changes (b : BayId) (o : LeakOps) (s : State) : Changes s (enterAmbient b o s) :=
  ((mapLeak_changes ..).trans (enterLeakPhase_changes ..)).trans (askAmbient_changes ..)

theorem fillSample_changes (b : BayId) (p : Int) (s : State) : Changes s (fillSample b p s) := by
  simp only [fillSample]
  split
  · exact ((mapLeak_changes ..).trans (releaseManifold_changes ..)).trans (enterSettle_changes ..)
  · exact mapLeak_changes ..

theorem computeLeak_changes (b : BayId) (p1 t1 p2 t2 : Int) (s : State) : Changes s (computeLeak b p1 t1 p2 t2 s) :=
  ((mapLeak_changes ..).trans (postLeak_changes ..)).trans (enterVent_changes ..)

theorem endMeasure_changes (b : BayId) (p1 t1 : Int) (s : State) : Changes s (endMeasure b p1 t1 s) := by
  simp only [endMeasure]
  split
  · split
    · exact computeLeak_changes ..
    · split
      · exact (mapLeak_changes ..).trans (enterSettle_changes ..)
      · exact (postLeak_changes ..).trans (enterVent_changes ..)
  · exact (postLeak_changes ..).trans (enterVent_changes ..)

theorem failFill_changes (b : BayId) (s : State) : Changes s (failFill b s) :=
  ((releaseManifold_changes ..).trans (postLeak_changes ..)).trans (enterVent_changes ..)

/-! ## Leaving a plan -/

theorem handReport_changes (b : BayId) (rep : Report) (s : State) : Changes s (handReport b rep s) := (Change.hand b rep s).run

theorem finishBay_changes (b : BayId) (v : FinalVerdict) (s : State) : Changes s (finishBay b v s) := by
  unfold finishBay
  exact (((((((mapDrive_changes ..).trans (mapSensor_changes ..)).trans (mapRecord_changes ..)).trans
    (releaseReference_changes ..)).trans (setOwner_changes ..)).trans (setBayState_changes ..)).trans
    (handReport_changes ..)).trans (cellStopCheck_changes _)

theorem divertBay_changes (b : BayId) (c : Cause) (s : State) : Changes s (divertBay b c s) := by
  unfold divertBay
  exact ((mapRecord_changes ..).trans (setBayState_changes ..)).trans (handReport_changes ..)

theorem settleEnding_changes (b : BayId) (s : State) : Changes s (settleEnding b s) := by
  unfold settleEnding
  split
  · split
    · exact finishBay_changes ..
    · split
      · exact finishBay_changes ..
      · exact .refl
    · exact .refl
  · exact .refl

theorem examineEnding_changes (b : BayId) (s : State) : Changes s (examineEnding b s) :=
  (mapDrive_changes ..).trans (settleEnding_changes ..)

theorem startWindDown_changes (b : BayId) (s : State) : Changes s (startWindDown b s) := mapDrive_changes ..

theorem enterClosing_changes (b : BayId) (s : State) : Changes s (enterClosing b s) := by
  unfold enterClosing
  exact ((((mapRecord_changes ..).trans (setBayState_changes ..)).trans (startWindDown_changes ..)).trans
    (refreshLines_changes ..)).trans (examineEnding_changes ..)

theorem enterHeld_changes (b : BayId) (point : HoldPoint) (s : State) : Changes s (enterHeld b point s) :=
  (mapRecord_changes ..).trans (setBayState_changes ..)

theorem enterAborting_changes (b : BayId) (c : Cause) (s : State) : Changes s (enterAborting b c s) := by
  have h : ∀ t, Changes s t → Changes s (examineEnding b (refreshLines b t)) := fun t ht =>
    (ht.trans (refreshLines_changes ..)).trans (examineEnding_changes ..)
  have h0 := (((((((mapRecord_changes b (fun r => { r with
      cause := some c, holdRequest := false, endRequest := false, phase := .none, holdPoint := none, latched := none,
      startTemperature := none }) s).trans (setBayState_changes b .aborting _)).trans
    (raise_changes (if c.isCommand then .aborted b else .fault b) _)).trans (cancelReductions_changes b _)).trans
    (endLeak_changes b _)).trans (stopAcquisition_changes b _)).trans
    (mapDrive_changes b (fun d => { d with dwell := none }) _))
  unfold enterAborting
  apply h
  split
  · exact h0
  · exact h0.trans (startWindDown_changes ..)

theorem recordSecondary_changes (b : BayId) (f : Cause) (s : State) : Changes s (recordSecondary b f s) := mapRecord_changes ..

theorem takeFault_changes (b : BayId) (f : Cause) (s : State) : Changes s (takeFault b f s) := by
  unfold takeFault
  split
  · exact enterAborting_changes ..
  · exact enterAborting_changes ..
  · exact enterAborting_changes ..
  · exact recordSecondary_changes ..
  · exact .refl

theorem enterEmpty_changes (b : BayId) (s : State) : Changes s (enterEmpty b s) :=
  (mapRecord_changes ..).trans (setBayState_changes ..)

end Sys2Proof.Machine
end

