-- ==== Sys2Proof/Laws/Steps.lean ====
section
/-! SUPPORT. Every command and event, and with them every step, is a run of the small changes of `Change`. -/

set_option Elab.async false

namespace Sys2Proof.Machine

/-! ## Walking a plan -/

theorem skipTest_changes (b : BayId) (rec : StepRecord) (s : State) : Changes s (skipTest b rec s).2 := by
  unfold skipTest
  split
  · refine (Change.audit (rec.auditCell.getD 56) s).run.trans ?_
    dsimp only
    exact mapRecord_changes b _ _
  · exact .refl

theorem startRamp_changes (b : BayId) (o : RampOps) (s : State) : Changes s (startRamp b o s).2 := by
  have h := mapDrive_changes b (fun d => { d with target := o.target, rampRate := o.rate.toNat, torqueLimit := o.torque.toNat }) s
  simp only [startRamp]
  split
  · exact h
  · split
    · exact h.trans (setPhase_changes ..)
    · exact h.trans (setPhase_changes ..)

theorem startDwell_changes (b : BayId) (o : DwellOps) (s : State) : Changes s (startDwell b o s).2 := by
  unfold startDwell
  refine Changes.trans ?_ (setPhase_changes ..)
  refine Changes.trans ?_ (mapRecord_changes b _ _)
  split
  · exact mapDrive_changes ..
  · exact .refl

theorem startListen_changes (b : BayId) (o : ListenOps) (s : State) : Changes s (startListen b o s).2 := by
  simp only [startListen]
  split
  · exact setPhase_changes ..
  · next k hk =>
    split
    · exact postResult_changes ..
    · refine Changes.trans ?_ (setPhase_changes ..)
      exact moveBuffer_changes b k (fun _ => ListenBuffer.acquire s.now o (s.bay b).record.slot) NoiseUnit.rowHunting s
        (.inl (NoiseUnit.get_find hk)) (fun _ => .inr rfl) (fun _ => rfl) (fun _ => rfl)

theorem startLeak_changes (b : BayId) (o : LeakOps) (s : State) : Changes s (startLeak b o s).2 := by
  simp only [startLeak]
  split
  · exact postResult_changes ..
  · split
    · exact postResult_changes ..
    · exact enterAmbient_changes ..

theorem startWork_changes (b : BayId) (ops : Operands) (s : State) : Changes s (startWork b ops s).2 := by
  cases ops with
  | ramp o => exact startRamp_changes ..
  | dwell o => exact startDwell_changes ..
  | listen o => exact startListen_changes ..
  | leak o => exact startLeak_changes ..

theorem beginStep_changes (b : BayId) (rec : StepRecord) (s : State) : Changes s (beginStep b rec s).2 := by
  simp only [beginStep]
  split
  · exact takeFault_changes ..
  · split
    · exact (mapRecord_changes ..).trans (postResult_changes ..)
    · exact ((mapRecord_changes ..).trans (mapRecord_changes ..)).trans (startWork_changes ..)

theorem enterStep_changes (b : BayId) (k : Nat) (rec : StepRecord) (s : State) : Changes s (enterStep b k rec s).2 := by
  simp only [enterStep]
  split
  · exact (mapRecord_changes ..).trans (setPhase_changes ..)
  · split
    · exact ((mapRecord_changes ..).trans (skipTest_changes ..)).trans (beginStep_changes ..)
    · exact (mapRecord_changes ..).trans (skipTest_changes ..)

theorem walk_changes (fuel : Nat) (b : BayId) (link : Nat) (s : State) : Changes s (walk fuel b link s) := by
  induction fuel generalizing link s with
  | zero => exact enterClosing_changes ..
  | succ n ih =>
    simp only [walk]
    split
    · exact enterClosing_changes ..
    split
    · exact enterHeld_changes ..
    split
    · exact enterClosing_changes ..
    split
    · exact enterClosing_changes ..
    split
    · exact ((enterStep_changes ..).trans (mapRecord_changes ..)).trans (ih ..)
    · exact enterStep_changes ..

theorem boundary_changes (b : BayId) (link : Nat) (s : State) : Changes s (boundary b link s) := walk_changes ..

theorem endStep_changes (b : BayId) (s : State) : Changes s (endStep b s) := (mapRecord_changes ..).trans (boundary_changes ..)

theorem afterStart_changes (b : BayId) {s : State} {out : Bool × State} (h : Changes s out.2) : Changes s (afterStart b out) := by
  unfold afterStart
  split
  · exact h.trans (endStep_changes ..)
  · exact h

theorem wakeBay_changes (b : BayId) (s : State) : Changes s (wakeBay b s) := by
  simp only [wakeBay]
  split
  · exact settleEnding_changes ..
  · split
    · split
      · exact afterStart_changes b (startListen_changes ..)
      · exact .refl
    · split
      · exact boundary_changes ..
      · exact .refl
  · exact .refl

theorem examineRamp_changes (b : BayId) (s : State) : Changes s (examineRamp b s) := by
  simp only [examineRamp]
  split
  · split
    · split
      · exact endStep_changes ..
      · split
        · exact setPhase_changes ..
        · exact .refl
    · exact .refl
  · exact .refl

/-! ## Drive and time -/

theorem jogStop_changes (b : BayId) (s : State) : Changes s (jogStop b s) := mapDrive_changes ..

theorem examineManual_changes (b : BayId) (s : State) : Changes s (examineManual b s) := by
  unfold examineManual
  split
  · exact mapDrive_changes ..
  · exact .refl

theorem driveTick_changes (b : BayId) (s : State) : Changes s (driveTick b s) :=
  ((((mapDrive_changes ..).trans (examineRamp_changes ..)).trans (examineEnding_changes ..)).trans
    (examineManual_changes ..)).trans (mapDrive_changes ..)

/-- A fold of runs is a run. -/
theorem foldl_changes (f : State → BayId → State) (h : ∀ s b, Changes s (f s b)) (bs : List BayId) (s : State) :
    Changes s (bs.foldl f s) := by
  induction bs generalizing s with
  | nil => exact .refl
  | cons b bs ih => exact (h s b).trans (ih _)

theorem sensorTick_changes (s : State) : Changes s (sensorTick s) :=
  foldl_changes _ (fun s b => mapSensor_changes b _ s) _ s

theorem tick_changes (order : List BayId) (s : State) : Changes s (tick order s) :=
  (((Change.clock _ s).run.trans (foldl_changes _ (fun s b => driveTick_changes b s) _ _)).trans (sensorTick_changes _)).trans
    (Change.timers _).run

theorem driveEvent_changes (b : BayId) (c : Cause) (s : State) : Changes s (driveEvent b c s) := by
  unfold driveEvent
  split
  · exact takeFault_changes ..
  · exact (jogStop_changes ..).trans (raise_changes ..)
  · exact .refl

theorem faultCheck_changes (b : BayId) (st : DriveState) (s : State) : Changes s (faultCheck b st s) := by
  unfold faultCheck
  split
  · split
    · exact .refl
    · exact (mapDrive_changes ..).trans (driveEvent_changes ..)
  · exact mapDrive_changes ..

theorem takeDriveReport_changes (b : BayId) (rep : DriveReport) (s : State) : Changes s (takeDriveReport b rep s) :=
  ((((mapDrive_changes ..).trans (faultCheck_changes ..)).trans (mapDrive_changes ..)).trans (examineRamp_changes ..)).trans
    (examineEnding_changes ..)

theorem finishDwell_changes (b : BayId) (o : DwellOps) (s : State) : Changes s (finishDwell b o s) := by
  have h : ∀ t, Changes s t → Changes s (endStep b (mapDrive b (fun d => { d with dwell := none }) t)) := fun t ht =>
    (ht.trans (mapDrive_changes ..)).trans (endStep_changes ..)
  unfold finishDwell
  apply h
  split
  · refine Changes.trans ?_ (postResult_changes ..)
    split
    · exact postResult_changes ..
    · exact .refl
  · split
    · exact postResult_changes ..
    · exact .refl

theorem expireWindDown_changes (b : BayId) (s : State) : Changes s (expireWindDown b s) := by
  unfold expireWindDown
  split
  · exact ((cancelReductions_changes ..).trans (mapRecord_changes ..)).trans (finishBay_changes ..)
  · exact (recordSecondary_changes ..).trans (finishBay_changes ..)
  · exact .refl

/-! ## Sample words -/

theorem finishVent_changes (b : BayId) (s : State) : Changes s (finishVent b s) :=
  ((mapLeak_changes ..).trans (refreshLines_changes ..)).trans (endStep_changes ..)

theorem offerPressure_changes (b : BayId) (p : Int) (s : State) : Changes s (offerPressure b p s) := by
  unfold offerPressure
  split
  · exact askAmbient_changes ..
  · exact fillSample_changes ..
  · split
    · exact finishVent_changes ..
    · exact .refl
  · exact .refl

theorem failAcquisition_changes (b : BayId) (k : BufId) (c : Cause) (s : State)
    (h : (s.buf b k).state = .free ∨ (s.buf b k).state = .acquiring) : Changes s (failAcquisition b k c s) :=
  ((moveBuffer_changes b k ListenBuffer.freed NoiseUnit.rowIdle s h (fun _ => .inl rfl) (fun _ => rfl) (fun _ => rfl)).trans
    (postResult_changes ..)).trans (endStep_changes ..)

@[simp] theorem rowHunting_buf (b : BayId) (k : BufId) (s : State) : (mapNoise b NoiseUnit.rowHunting s).buf b k = s.buf b k := by
  cases k <;> simp [State.buf, NoiseUnit.get, NoiseUnit.rowHunting]

@[simp] theorem rowIdle_buf (b : BayId) (k : BufId) (s : State) : (mapNoise b NoiseUnit.rowIdle s).buf b k = s.buf b k := by
  cases k <;> simp [State.buf, NoiseUnit.get, NoiseUnit.rowIdle]

theorem finishAcquisition_changes (b : BayId) (k : BufId) (s : State) (h : (s.buf b k).state = .acquiring) :
    Changes s (finishAcquisition b k s) := by
  unfold finishAcquisition
  split
  · exact failAcquisition_changes b k _ s (.inr h)
  · have h' : ((mapNoise b NoiseUnit.rowIdle s).buf b k).state = .acquiring := by rw [rowIdle_buf]; exact h
    exact (((rowIdle_changes b s).trans (Change.enqueue b k _ h').run).trans (engineTake_changes _)).trans (endStep_changes ..)

@[simp] theorem ListenBuffer.addRow_state (row : List Int) (x : ListenBuffer) : (x.addRow row).state = x.state := by
  simp only [ListenBuffer.addRow]

theorem completeRow_changes (b : BayId) (k : BufId) (row : List Int) (s : State) (h : (s.buf b k).state = .acquiring) :
    Changes s (completeRow b k row s) := by
  have h0 : Changes s (mapNoise b NoiseUnit.rowHunting (mapBuf b k (ListenBuffer.addRow row) s)) :=
    (content_changes b k (ListenBuffer.addRow row) s (ListenBuffer.addRow_state row)).trans (rowHunting_changes ..)
  simp only [completeRow]
  split
  · refine h0.trans (finishAcquisition_changes b k _ ?_)
    rw [rowHunting_buf, mapBuf_buf_same, ListenBuffer.addRow_state]
    exact h
  · exact h0

theorem slip_changes (b : BayId) (k : BufId) (lane : Nat) (v : Int) (s : State) (h : (s.buf b k).state = .acquiring) :
    Changes s (slip b k lane v s) := by
  have h0 : Changes s (mapNoise b NoiseUnit.rowHunting (mapBuf b k (fun x => { x with slips := x.slips + 1 }) s)) :=
    (content_changes b k _ s).trans (rowHunting_changes ..)
  simp only [slip]
  split
  · refine h0.trans (failAcquisition_changes b k _ _ (.inr ?_))
    rw [rowHunting_buf, mapBuf_buf_same]
    exact h
  · split
    · exact h0.trans (row_changes ..)
    · exact h0

theorem offerVibration_changes (b : BayId) (angle : Nat) (v : Int) (s : State) : Changes s (offerVibration b angle v s) := by
  simp only [offerVibration]
  split
  · split
    · exact row_changes ..
    · exact .refl
  · next e k hrow hk =>
    have hs : (s.buf b k).state = .acquiring := NoiseUnit.get_find hk
    split
    · exact slip_changes b k _ v s hs
    · split
      · exact completeRow_changes b k _ s hs
      · exact row_changes ..
  · exact .refl

theorem loseChannel_changes (b : BayId) (w : LossWatch) (s : State) : Changes s (loseChannel b w s) := by
  unfold loseChannel
  split
  · exact .refl
  · exact (mapSensor_changes ..).trans (takeFault_changes ..)

theorem completeReduction_changes (j : EngineJob) (s : State) (h : s.reducer.engine = some j) :
    Changes s (completeReduction j s) := by
  have h0 : ∀ t, Changes s t → t.reducer.engine = some j → Changes s (engineTake (wakeBay j.bay (freeReduced j t))) :=
    fun t ht he => ((ht.trans (Change.reduced j t he).run).trans (wakeBay_changes ..)).trans (engineTake_changes _)
  unfold completeReduction
  apply h0
  · split
    · exact .refl
    · exact postResult_changes ..
  · split
    · exact h
    · unfold postResult
      split
      · exact h
      · exact h

/-! ## Lines -/

theorem inputFalls_changes (b : BayId) (l : InputLine) (s : State) : Changes s (inputFalls b l s) := by
  simp only [inputFalls]
  split
  · exact takeFault_changes ..
  · exact takeFault_changes ..
  · exact takeFault_changes ..
  · exact takeFault_changes ..
  · split
    · exact enterEmpty_changes ..
    · exact .refl
  · split
    · exact jogStop_changes ..
    · exact .refl

theorem changeInput_changes (b : BayId) (l : InputLine) (v : Bool) (s : State) : Changes s (changeInput b l v s) := by
  have h0 : ∀ t, Changes s t → Changes s (if v then t else inputFalls b l t) := fun t ht => by
    split
    · exact ht
    · exact ht.trans (inputFalls_changes ..)
  unfold changeInput
  split
  · exact .refl
  · apply h0
    split
    · exact (mapRecord_changes ..).trans (raise_changes ..)
    · exact mapRecord_changes ..

/-! ## Commands -/

theorem prepare_changes (p : PortId) (cmd : Instr) (st : Status) (pl : List Byte) (s : State) :
    Changes s (mapPort p (Port.prepare cmd st pl) s) :=
  (Change.port p (Port.prepare cmd st pl) s (fun _ => rfl) (fun _ => rfl) (fun _ => rfl) (fun _ => rfl) (fun _ => rfl)).run

theorem serve_changes (p : PortId) (cmd : Instr) (body : State → Reply) (s : State) (h : Changes s (body s).state) :
    Changes s (serve p cmd body s) := by
  unfold serve
  refine Changes.trans ?_ (prepare_changes ..)
  split
  · exact h
  · exact .refl

theorem onBay_changes (n : Nat) (f : BayId → State → Reply) (s : State) (h : ∀ b, Changes s (f b s).state) :
    Changes s (onBay n f s).state := by
  unfold onBay
  split
  · exact h _
  · exact .refl

theorem onPlan_changes (n : Nat) (f : State → Reply) (s : State) (h : Changes s (f s).state) :
    Changes s (onPlan n f s).state := by
  unfold onPlan
  split
  · exact h
  · exact .refl

theorem runCellRun_changes (s : State) : Changes s (runCellRun s).state := by
  simp only [runCellRun, accept]
  split
  · exact .refl
  · exact setCellState_changes ..

theorem runCellStop_changes (s : State) : Changes s (runCellStop s).state := by
  simp only [runCellStop, accept]
  split
  · exact setCellState_changes ..
  · exact .refl

theorem runClearTables_changes (s : State) : Changes s (runClearTables s).state := by
  unfold runClearTables
  split
  · exact (Change.tables s).run
  · exact .refl

theorem runConfigureBay_changes (c : BayConfig) (b : BayId) (s : State) : Changes s (runConfigureBay c b s).state := by
  unfold runConfigureBay
  split
  · exact (Change.config b c s).run
  · exact .refl

theorem runPresent_changes (serial : List Byte) (code : Nat) (b : BayId) (s : State) :
    Changes s (runPresent serial code b s).state := by
  unfold runPresent
  split
  · exact .refl
  split
  · exact .refl
  split
  · exact .refl
  split
  · exact .refl
  · exact (mapRecord_changes ..).trans (setBayState_changes ..)

theorem startPlan_changes (b : BayId) (v : VariantEntry) (s : State) : Changes s (startPlan b v s) := by
  unfold startPlan
  exact (((((((takeReference_changes ..).trans (mapRecord_changes ..)).trans (setOwner_changes ..)).trans
    (setBayState_changes ..)).trans (mapSensor_changes ..)).trans (mapDrive_changes ..)).trans (refreshLines_changes ..)).trans
    (boundary_changes ..)

theorem runHandover_changes (b : BayId) (s : State) : Changes s (runHandover b s).state := by
  simp only [runHandover]
  split
  · exact .refl
  split
  · exact .refl
  split
  · exact .refl
  split
  · exact .refl
  split
  · exact .refl
  split
  · exact (mapRecord_changes ..).trans (startPlan_changes ..)
  · exact (mapRecord_changes ..).trans (divertBay_changes ..)

theorem runWithdraw_changes (b : BayId) (s : State) : Changes s (runWithdraw b s).state := by
  unfold runWithdraw
  split
  · exact .refl
  · split
    · exact divertBay_changes ..
    · exact enterAborting_changes ..
    · exact enterAborting_changes ..
    · exact enterAborting_changes ..
    · exact .refl
    · exact .refl

theorem runRelease_changes (b : BayId) (s : State) : Changes s (runRelease b s).state := by
  simp only [runRelease]
  split
  · exact .refl
  split
  · exact .refl
  · simp only [accept]
    split
    · exact setBayState_changes ..
    · exact (setBayState_changes ..).trans (enterEmpty_changes ..)

theorem runAbort_changes (b : BayId) (s : State) : Changes s (runAbort b s).state := by
  unfold runAbort
  split
  · exact enterAborting_changes ..
  · exact enterAborting_changes ..
  · exact enterAborting_changes ..
  · exact .refl
  · exact .refl

theorem runWriteLines_changes (p : PortId) (mask : BitVec 8) (v : Bool) (b : BayId) (s : State) :
    Changes s (runWriteLines p mask v b s).state := by
  unfold runWriteLines
  split
  · exact .refl
  split
  · exact .refl
  · dsimp only [accept]
    exact mapRecord_changes ..

theorem runHold_changes (b : BayId) (s : State) : Changes s (runHold b s).state := by
  unfold runHold
  split
  · split
    · exact enterHeld_changes ..
    · dsimp only [accept]
      exact mapRecord_changes ..
  · exact .refl
  · exact .refl
  · exact .refl

theorem resumeBay_changes (b : BayId) (s : State) : Changes s (resumeBay b s) :=
  ((mapRecord_changes ..).trans (setBayState_changes ..)).trans (boundary_changes ..)

theorem runResume_changes (b : BayId) (s : State) : Changes s (runResume b s).state := by
  unfold runResume
  split
  · exact resumeBay_changes ..
  · dsimp only [accept]
    exact mapRecord_changes ..
  · exact .refl

theorem runTakeManual_changes (b : BayId) (s : State) : Changes s (runTakeManual b s).state := by
  simp only [runTakeManual]
  split
  · split
    · exact setOwner_changes ..
    · exact .refl
    · exact .refl
  · exact .refl

theorem runReturnManual_changes (b : BayId) (s : State) : Changes s (runReturnManual b s).state := by
  unfold runReturnManual
  split
  · exact .refl
  split
  · exact (mapDrive_changes ..).trans (setOwner_changes ..)
  · exact .refl

theorem runJog_changes (v : Int) (b : BayId) (s : State) : Changes s (runJog v b s).state := by
  simp only [runJog]
  split
  · exact .refl
  split
  · exact jogStop_changes ..
  split
  · exact .refl
  split
  · exact .refl
  · dsimp only [accept, startJog]
    exact mapDrive_changes ..

theorem runOpenPlan_changes (n : Nat) (s : State) : Changes s (runOpenPlan n s).state := by
  simp only [runOpenPlan]
  split
  · exact plans_changes _ s (by simp) (by simp)
  · exact .refl

theorem runWriteStep_changes (n k : Nat) (r : StepRecord) (s : State) : Changes s (runWriteStep n k r s).state := by
  unfold runWriteStep
  split
  · exact .refl
  split
  · exact .refl
  split
  · exact .refl
  · exact plans_changes _ s rfl rfl

theorem runPublishPlan_changes (n head : Nat) (flag : Bool) (s : State) : Changes s (runPublishPlan n head flag s).state := by
  unfold runPublishPlan
  split
  · exact .refl
  split
  · exact .refl
  split
  · exact .refl
  · exact plans_changes _ s (by simp [PlanStore.publish, PlanStore.freeSlots]) (by simp [PlanStore.publish, PlanStore.freeSlots])

theorem runDiscardPlan_changes (n : Nat) (s : State) : Changes s (runDiscardPlan n s).state := by
  unfold runDiscardPlan
  split
  · exact plans_changes _ s (by simp) (by simp)
  · exact .refl

theorem runRetirePlan_changes (n : Nat) (s : State) : Changes s (runRetirePlan n s).state := by
  simp only [runRetirePlan]
  split
  · exact .refl
  split
  · exact .refl
  split
  · exact (plans_changes _ s (by simp) (by simp)).trans (raise_changes ..)
  · exact plans_changes _ s (by simp) (by simp)

theorem runReadStep_changes (k : Nat) (s : State) : Changes s (runReadStep k s).state := by
  unfold runReadStep
  split
  · exact .refl
  · split
    · exact .refl
    · exact .refl

theorem runWriteVariant_changes (code plan : Nat) (cells : Vector Int Config.variantCellCount) (s : State) :
    Changes s (runWriteVariant code plan cells s).state := by
  unfold runWriteVariant
  split
  · exact .refl
  next hArgs =>
  split
  · exact .refl
  split
  · exact .refl
  next hFull =>
  refine (Change.variant ⟨code, plan, cells⟩ s (by simp_all) ?_).run
  by_cases hv : (s.store.variant code).isSome
  · exact .inl hv
  · exact .inr (by simp_all)

theorem runDeleteVariant_changes (code : Nat) (s : State) : Changes s (runDeleteVariant code s).state := by
  unfold runDeleteVariant
  split
  · exact .refl
  split
  · exact .refl
  · exact (Change.unvariant code s).run

theorem runReadVariant_changes (code start : Nat) (s : State) : Changes s (runReadVariant code start s).state := by
  unfold runReadVariant
  split
  · exact .refl
  split
  · exact .refl
  split
  · exact .refl
  · exact .refl

theorem runWriteCell_changes (i : Nat) (v : Int) (s : State) : Changes s (runWriteCell i v s).state := by
  unfold runWriteCell
  split
  · exact .refl
  · exact (Change.common i v s).run

theorem runReadCell_changes (i : Nat) (s : State) : Changes s (runReadCell i s).state := by
  unfold runReadCell
  split
  · exact .refl
  · exact .refl

theorem runPeekReport_changes (offset length : Nat) (s : State) : Changes s (runPeekReport offset length s).state := by
  unfold runPeekReport
  split
  · exact .refl
  · simp only
    split
    · exact .refl
    · exact .refl

theorem runTakeReport_changes (n : Nat) (s : State) : Changes s (runTakeReport n s).state := by
  unfold runTakeReport
  split
  · exact .refl
  · next rep rest hq =>
    split
    · exact (Change.take s (by simp [hq])).run
    · exact .refl

theorem runNextNotice_changes (p : PortId) (s : State) : Changes s (runNextNotice p s).state := by
  unfold runNextNotice
  split
  · exact .refl
  · next n rest h => exact (Change.readNotice p n rest s h).run

/-! ## Ports -/

/-- A change of a port that leaves its notices, mask, interval, timer and notice line alone. -/
structure KeepsNotices (f : Port → Port) : Prop where
  notices : ∀ x, (f x).notices = x.notices
  mask : ∀ x, (f x).mask = x.mask
  interval : ∀ x, (f x).interval = x.interval
  quietTimer : ∀ x, (f x).quietTimer = x.quietTimer
  ntf : ∀ x, (f x).ntf = x.ntf

theorem KeepsNotices.changes {f : Port → Port} (h : KeepsNotices f) (p : PortId) (s : State) : Changes s (mapPort p f s) :=
  (Change.port p f s h.notices h.mask h.interval h.quietTimer h.ntf).run

theorem startTransfer_keepsNotices : KeepsNotices Port.startTransfer := by
  constructor <;> intro x <;> unfold Port.startTransfer <;> split <;> first | rfl | (split <;> rfl)

theorem take_keepsNotices (taken : Taken) (bytes : List Byte) (extraBits : Nat) :
    KeepsNotices (Port.take taken bytes extraBits) := by
  constructor <;> (intro x; unfold Port.take; cases taken <;> rfl)

theorem endTransfer_keepsNotices (id : PortId) (bytes : List Byte) (extraBits : Nat) :
    KeepsNotices (Port.endTransfer id bytes extraBits) := by
  have h := take_keepsNotices (takeFrame id bytes extraBits) bytes extraBits
  constructor
  · intro x; unfold Port.endTransfer; split <;> first | rfl | exact h.notices _
  · intro x; unfold Port.endTransfer; split <;> first | rfl | exact h.mask _
  · intro x; unfold Port.endTransfer; split <;> first | rfl | exact h.interval _
  · intro x; unfold Port.endTransfer; split <;> first | rfl | exact h.quietTimer _
  · intro x; unfold Port.endTransfer; split <;> first | rfl | exact h.ntf _

theorem finishResponse_keepsNotices : KeepsNotices Port.finishResponse := by
  constructor <;> intro x <;> unfold Port.finishResponse <;> split <;> first | rfl | (dsimp only; split <;> rfl)

/-! ## Every command and event -/

theorem runCommand_changes (cmd : Instr) (s : State) : Changes s (runCommand cmd s) := by
  cases cmd with
  | nop p => exact serve_changes _ _ _ _ (.refl)
  | nextNotice p => exact serve_changes _ _ _ _ (runNextNotice_changes ..)
  | setNoticeMask p mask => exact serve_changes _ _ _ _ ((Change.mask ..).run)
  | setNoticeInterval p ms => exact serve_changes _ _ _ _ ((Change.interval ..).run)
  | present p bay serial code => exact serve_changes _ _ _ _ (onBay_changes _ _ _ fun b => runPresent_changes ..)
  | handover p bay => exact serve_changes _ _ _ _ (onBay_changes _ _ _ fun b => runHandover_changes ..)
  | withdraw p bay => exact serve_changes _ _ _ _ (onBay_changes _ _ _ fun b => runWithdraw_changes ..)
  | release p bay => exact serve_changes _ _ _ _ (onBay_changes _ _ _ fun b => runRelease_changes ..)
  | setLines p bay mask => exact serve_changes _ _ _ _ (onBay_changes _ _ _ fun b => runWriteLines_changes ..)
  | clearLines p bay mask => exact serve_changes _ _ _ _ (onBay_changes _ _ _ fun b => runWriteLines_changes ..)
  | readBay p bay => exact serve_changes _ _ _ _ (onBay_changes _ _ _ fun b => .refl)
  | cellRun p => exact serve_changes _ _ _ _ (runCellRun_changes _)
  | cellStop p => exact serve_changes _ _ _ _ (runCellStop_changes _)
  | clearTables p => exact serve_changes _ _ _ _ (runClearTables_changes _)
  | setCell p ramp threshold => exact serve_changes _ _ _ _ ((Change.settings ..).run)
  | configureBay p bay speed width angle m => exact serve_changes _ _ _ _ (onBay_changes _ _ _ fun b => runConfigureBay_changes ..)
  | openPlan p n => exact serve_changes _ _ _ _ (onPlan_changes _ _ _ (runOpenPlan_changes ..))
  | writeStep p n k r => exact serve_changes _ _ _ _ (onPlan_changes _ _ _ (runWriteStep_changes ..))
  | publishPlan p n head flag => exact serve_changes _ _ _ _ (onPlan_changes _ _ _ (runPublishPlan_changes ..))
  | discardPlan p n => exact serve_changes _ _ _ _ (onPlan_changes _ _ _ (runDiscardPlan_changes ..))
  | retirePlan p n => exact serve_changes _ _ _ _ (onPlan_changes _ _ _ (runRetirePlan_changes ..))
  | readStep p k => exact serve_changes _ _ _ _ (runReadStep_changes ..)
  | readPlan p n => exact serve_changes _ _ _ _ (onPlan_changes _ _ _ .refl)
  | writeVariant p code n cells => exact serve_changes _ _ _ _ (runWriteVariant_changes ..)
  | deleteVariant p code => exact serve_changes _ _ _ _ (runDeleteVariant_changes ..)
  | readVariant p code start => exact serve_changes _ _ _ _ (runReadVariant_changes ..)
  | writeCell p i v => exact serve_changes _ _ _ _ (runWriteCell_changes ..)
  | readCell p i => exact serve_changes _ _ _ _ (runReadCell_changes ..)
  | hold p bay => exact serve_changes _ _ _ _ (onBay_changes _ _ _ fun b => runHold_changes ..)
  | resume p bay => exact serve_changes _ _ _ _ (onBay_changes _ _ _ fun b => runResume_changes ..)
  | abort p bay => exact serve_changes _ _ _ _ (onBay_changes _ _ _ fun b => runAbort_changes ..)
  | takeManual p bay => exact serve_changes _ _ _ _ (onBay_changes _ _ _ fun b => runTakeManual_changes ..)
  | returnManual p bay => exact serve_changes _ _ _ _ (onBay_changes _ _ _ fun b => runReturnManual_changes ..)
  | jog p bay speed => exact serve_changes _ _ _ _ (onBay_changes _ _ _ fun b => runJog_changes ..)
  | readLive p bay => exact serve_changes _ _ _ _ (onBay_changes _ _ _ fun b => .refl)
  | peekReport p offset length => exact serve_changes _ _ _ _ (runPeekReport_changes ..)
  | takeReport p sequence => exact serve_changes _ _ _ _ (runTakeReport_changes ..)
  | queueStatus p => exact serve_changes _ _ _ _ (.refl)
  | _ => exact .refl

theorem runRequest_changes (p : PortId) (s : State) : Changes s (runRequest p s) := by
  unfold runRequest
  split
  · exact runCommand_changes ..
  · exact .refl

/-- What a command or event can do: a run of small changes. -/
theorem exec_changes {i : Instr} {s t : State} (h : exec i s = .next t) : Changes s t := by
  cases i with
  | powerOnReset =>
    cases h
    exact (Change.reset s).run
  | millisecondTick order =>
    cases h
    exact tick_changes ..
  | driveReport bay echo st speed torque check =>
    cases h
    split
    · exact takeDriveReport_changes ..
    · exact .refl
  | driveLost bay =>
    cases h
    split
    · exact (mapDrive_changes ..).trans (driveEvent_changes ..)
    · exact .refl
  | rampTimeout bay =>
    cases h
    split
    · exact takeFault_changes ..
    · exact .refl
  | dwellEnd bay =>
    cases h
    split
    · exact finishDwell_changes ..
    · exact .refl
  | windDownExpiry bay =>
    cases h
    split
    · exact expireWindDown_changes ..
    · exact .refl
  | holdExpired bay =>
    cases h
    split
    · exact takeFault_changes ..
    · exact .refl
  | pressureWord bay payload =>
    cases h
    exact (mapSensor_changes ..).trans (offerPressure_changes ..)
  | temperatureWord bay payload =>
    cases h
    exact mapSensor_changes ..
  | vibrationWord bay payload =>
    cases h
    exact (mapSensor_changes ..).trans (offerVibration_changes ..)
  | foreignTagWord bay _ =>
    cases h
    exact mapSensor_changes ..
  | wordBreak bay =>
    cases h
    exact mapSensor_changes ..
  | silencePurge bay channel =>
    cases h
    exact mapSensor_changes ..
  | pressureLoss bay =>
    cases h
    split
    · split
      · exact loseChannel_changes ..
      · exact .refl
    · exact .refl
  | temperatureLoss bay =>
    cases h
    split
    · split
      · exact loseChannel_changes ..
      · exact .refl
    · exact .refl
  | acquisitionTimeout bay =>
    cases h
    split
    · next k hk =>
      refine failAcquisition_changes bay k _ s (.inr ?_)
      unfold acquisitionDue at hk
      split at hk
      · cases hk
      · next k' hf =>
        dsimp only at hk
        split at hk
        · cases hk; exact NoiseUnit.get_find hf
        · cases hk
    · exact .refl
  | reductionComplete =>
    cases h
    split
    · next j hj =>
      refine completeReduction_changes j s ?_
      unfold reductionDue at hj
      split at hj
      · next j' he =>
        split at hj
        · cases hj; exact he
        · cases hj
      · cases hj
    · exact .refl
  | fillLimitExpiry bay =>
    cases h
    split
    · exact failFill_changes ..
    · exact .refl
  | settleEnd bay =>
    cases h
    split
    · exact enterMeasure_changes ..
    · exact .refl
  | measureEnd bay =>
    cases h
    split
    · split
      · exact endMeasure_changes ..
      · exact .refl
    · exact .refl
  | ventLimitExpiry bay =>
    cases h
    split
    · exact takeFault_changes ..
    · exact .refl
  | inputLineChange bay line level =>
    cases h
    exact changeInput_changes ..
  | quietTimerExpiry p =>
    cases h
    exact (Change.timerEnd ..).run
  | transferStart p =>
    cases h
    exact startTransfer_keepsNotices.changes ..
  | requestTaken p bytes extra =>
    cases h
    exact (endTransfer_keepsNotices ..).changes ..
  | responseReady p =>
    cases h
    exact (runRequest_changes ..).trans (finishResponse_keepsNotices.changes ..)
  | nop p => cases h; exact serve_changes _ _ _ _ (.refl)
  | nextNotice p => cases h; exact serve_changes _ _ _ _ (runNextNotice_changes ..)
  | setNoticeMask p mask => cases h; exact serve_changes _ _ _ _ ((Change.mask ..).run)
  | setNoticeInterval p ms => cases h; exact serve_changes _ _ _ _ ((Change.interval ..).run)
  | present p bay serial code => cases h; exact serve_changes _ _ _ _ (onBay_changes _ _ _ fun b => runPresent_changes ..)
  | handover p bay => cases h; exact serve_changes _ _ _ _ (onBay_changes _ _ _ fun b => runHandover_changes ..)
  | withdraw p bay => cases h; exact serve_changes _ _ _ _ (onBay_changes _ _ _ fun b => runWithdraw_changes ..)
  | release p bay => cases h; exact serve_changes _ _ _ _ (onBay_changes _ _ _ fun b => runRelease_changes ..)
  | setLines p bay mask => cases h; exact serve_changes _ _ _ _ (onBay_changes _ _ _ fun b => runWriteLines_changes ..)
  | clearLines p bay mask => cases h; exact serve_changes _ _ _ _ (onBay_changes _ _ _ fun b => runWriteLines_changes ..)
  | readBay p bay => cases h; exact serve_changes _ _ _ _ (onBay_changes _ _ _ fun b => .refl)
  | cellRun p => cases h; exact serve_changes _ _ _ _ (runCellRun_changes _)
  | cellStop p => cases h; exact serve_changes _ _ _ _ (runCellStop_changes _)
  | clearTables p => cases h; exact serve_changes _ _ _ _ (runClearTables_changes _)
  | setCell p ramp threshold => cases h; exact serve_changes _ _ _ _ ((Change.settings ..).run)
  | configureBay p bay speed width angle m => cases h; exact serve_changes _ _ _ _ (onBay_changes _ _ _ fun b => runConfigureBay_changes ..)
  | openPlan p n => cases h; exact serve_changes _ _ _ _ (onPlan_changes _ _ _ (runOpenPlan_changes ..))
  | writeStep p n k r => cases h; exact serve_changes _ _ _ _ (onPlan_changes _ _ _ (runWriteStep_changes ..))
  | publishPlan p n head flag => cases h; exact serve_changes _ _ _ _ (onPlan_changes _ _ _ (runPublishPlan_changes ..))
  | discardPlan p n => cases h; exact serve_changes _ _ _ _ (onPlan_changes _ _ _ (runDiscardPlan_changes ..))
  | retirePlan p n => cases h; exact serve_changes _ _ _ _ (onPlan_changes _ _ _ (runRetirePlan_changes ..))
  | readStep p k => cases h; exact serve_changes _ _ _ _ (runReadStep_changes ..)
  | readPlan p n => cases h; exact serve_changes _ _ _ _ (onPlan_changes _ _ _ .refl)
  | writeVariant p code n cells => cases h; exact serve_changes _ _ _ _ (runWriteVariant_changes ..)
  | deleteVariant p code => cases h; exact serve_changes _ _ _ _ (runDeleteVariant_changes ..)
  | readVariant p code start => cases h; exact serve_changes _ _ _ _ (runReadVariant_changes ..)
  | writeCell p i v => cases h; exact serve_changes _ _ _ _ (runWriteCell_changes ..)
  | readCell p i => cases h; exact serve_changes _ _ _ _ (runReadCell_changes ..)
  | hold p bay => cases h; exact serve_changes _ _ _ _ (onBay_changes _ _ _ fun b => runHold_changes ..)
  | resume p bay => cases h; exact serve_changes _ _ _ _ (onBay_changes _ _ _ fun b => runResume_changes ..)
  | abort p bay => cases h; exact serve_changes _ _ _ _ (onBay_changes _ _ _ fun b => runAbort_changes ..)
  | takeManual p bay => cases h; exact serve_changes _ _ _ _ (onBay_changes _ _ _ fun b => runTakeManual_changes ..)
  | returnManual p bay => cases h; exact serve_changes _ _ _ _ (onBay_changes _ _ _ fun b => runReturnManual_changes ..)
  | jog p bay speed => cases h; exact serve_changes _ _ _ _ (onBay_changes _ _ _ fun b => runJog_changes ..)
  | readLive p bay => cases h; exact serve_changes _ _ _ _ (onBay_changes _ _ _ fun b => .refl)
  | peekReport p offset length => cases h; exact serve_changes _ _ _ _ (runPeekReport_changes ..)
  | takeReport p sequence => cases h; exact serve_changes _ _ _ _ (runTakeReport_changes ..)
  | queueStatus p => cases h; exact serve_changes _ _ _ _ (.refl)

/-- What a step can do: it takes the front of the queue away, then a run of small changes. -/
theorem step_changes {s t : State} (h : step s = .next t) : t = s ∨ ∃ c cs, s.pending = c :: cs ∧ Changes { s with pending := cs } t := by
  unfold step at h
  split at h
  · cases h; exact .inl rfl
  · next c cs hq => exact .inr ⟨c, cs, hq, exec_changes h⟩

end Sys2Proof.Machine
end

