-- ==== Sys2Proof/Tests/Slice0.lean ====
section
/-! SUPPORT. Tests of the model: refused ill-formed terms, the manual's worked examples, and for every statement with hypotheses a
witness that meets them. Expected numbers are the manual's; the comment of each test names their place. -/

set_option Elab.async false

namespace Sys2Proof.Tests

open Sys2Proof.Machine

/-! ## Small states -/

/-- Ten references with the given leading immediates. -/
def refs (l : List Int) : Vector Ref Config.refCount := Vector.ofFn fun i => .immediate (l.getD i.val 0)

def runStep (kind : StepKind) (next : Nat) (l : List Int) : StepRecord := ⟨kind, .run, none, next, refs l⟩

/-- Plan 1 is READY with a DWELL in slot 0 and a LISTEN in slot 1; plan 5 is LOADING with a RAMP in slot 20; plan 16 is EMPTY. -/
def store : PlanStore :=
  { PlanStore.reset with
    slots := ((PlanStore.reset.slots.set 0 (some ⟨1, runStep .dwell 1 [30000, 450, 600, 2500, 3500]⟩)).set 1
      (some ⟨1, runStep .listen 255 [6, 8, 40, 120, 300, 450, 300, 450, 0, 1000]⟩)).set 20
      (some ⟨5, runStep .ramp 255 [1200, 100, 2000, 20, 60000]⟩)
    directory := (PlanStore.reset.directory.set 0 ⟨.ready, some 0, 3, true, 3, some 2, some 3⟩).set 4
      ⟨.loading, none, 65535, false, 0, none, none⟩
    variants := [⟨7, 1, Vector.replicate 16 0⟩] }

def dwellOps : DwellOps := ⟨30000, 450, 600, 2500, 3500⟩
def listenOps : ListenOps := ⟨4, 8, 40, 120, 300, 450, 300, 450, 0, 1000⟩
def leakOps : LeakOps := ⟨30000, 12000, 8000, 5000, 20, 300, 600, 50, 1⟩
def rampOps : RampOps := ⟨600, 100, 2000, 20, 60000⟩

/-- A bay under test. -/
def tested (phase : StepPhase) : Bay :=
  { Bay.reset with
    record := { BayRecord.reset with
      state := .running, owner := .sequencer, serial := some [0x34], variantCode := 7, planNumber := some 1, planVersion := some 3,
      slot := some 0, phase := phase, stepStart := some 0, handoverTime := some 0, inputs := ⟨true, true, true, true⟩ }
    drive := { DriveLink.reset with x := 600000, target := 600, enable := true, awaited := some 255, sequence := 0 }
    sensor := { SensorLink.reset with lossWatch := some ⟨0, 0, false⟩ } }

/-- Bay D dwells on plan 1, bay C waits with its buffer A0 in the engine and A1 queued, bay B holds the manifold in FILL, and bay A is
FINISHED with its report committed. -/
def trial : State :=
  { State.reset with
    cell := { CellControl.reset with state := .running, time := 1000000 }
    store := store
    bays :=
      { Bays.reset with
        a := { Bay.reset with record := { BayRecord.reset with state := .finished, serial := some [0x33], reportStatus := .committed } }
        b := { tested .fill with
          record := { (tested .fill).record with lines := ⟨false, false, true, true, false⟩, latched := some (.leak leakOps) }
          leak := { LeakUnit.reset with phase := .fill, ops := some leakOps, phaseStart := some 999000, ambient := some 101000 } }
        c := { tested .entryWait with
          record := { (tested .entryWait).record with slot := some 1, pendingReductions := 2 }
          noise := { NoiseUnit.reset with
            a0 := { ListenBuffer.reset with state := .reducing, ops := some listenOps, slot := some 1 }
            a1 := { ListenBuffer.reset with state := .queued, ops := some listenOps, slot := some 1 } } }
        d := { tested .dwelling with
          record := { (tested .dwelling).record with latched := some (.dwell dwellOps), startTemperature := some 30815 }
          drive := { (tested .dwelling).drive with dwell := some ⟨29998, 12314200, 498⟩ } } }
    reducer := ⟨[(.bayC, .a1)], some ⟨.bayC, .a0, 999998⟩⟩
    manifold := ⟨some .bayB, []⟩
    reports := ⟨[⟨some 1, .bayA, [0x33], 7, 1, 3, .pass, none, none, false, false, some 0, 999999, []⟩], 2, [], false⟩
    ports :=
      { Ports.reset with
        cell := { Ports.reset.cell with
          notices := [.fault .bayD, .bayState .bayD], ntf := true, interval := 100, response := some ⟨.badFrame, 0, true, [1]⟩ } }
    pending := [.nop .cell] }

theorem forall_bay {p : BayId → Prop} (a : p .bayA) (b : p .bayB) (c : p .bayC) (d : p .bayD) : ∀ x, p x := fun x => by cases x <;> assumption
theorem forall_port {p : PortId → Prop} (l : p .line) (c : p .cell) (a : p .archive) : ∀ x, p x := fun x => by cases x <;> assumption
theorem forall_buf {p : BufId → Prop} (a : p .a0) (b : p .a1) : ∀ x, p x := fun x => by cases x <;> assumption

/-! ## Well-formed commands -/

theorem test_ok_setCell : (Instr.setCell .cell 65535 255).wellFormed = true := by decide
theorem test_bad_tick_order : (Instr.millisecondTick [.bayA, .bayA, .bayB, .bayC]).wellFormed = false := by decide
theorem test_bad_extra_bits : (Instr.requestTaken .line [] 8).wellFormed = false := by decide
theorem test_bad_bay : (Instr.handover .line 256).wellFormed = false := by decide
theorem test_bad_interval : (Instr.setNoticeInterval .line 65536).wellFormed = false := by decide
theorem test_bad_serial : (Instr.present .line 0 [] 7).wellFormed = false := by decide
theorem test_bad_long_serial : (Instr.present .line 0 (List.replicate 21 0) 7).wellFormed = false := by decide
theorem test_bad_variant_code : (Instr.deleteVariant .cell 65536).wellFormed = false := by decide
theorem test_bad_ramp : (Instr.setCell .cell 65536 1).wellFormed = false := by decide
theorem test_bad_width : (Instr.configureBay .cell 0 1500 256 0 BayConfig.reset.map).wellFormed = false := by decide
theorem test_bad_plan : (Instr.openPlan .cell 256).wellFormed = false := by decide
theorem test_bad_slot : (Instr.readStep .cell 256).wellFormed = false := by decide
theorem test_bad_audit_cell : (Instr.writeStep .cell 1 0 ⟨.ramp, .audit, none, 255, refs []⟩).wellFormed = false := by decide
theorem test_bad_reference : (Instr.writeStep .cell 1 0 (runStep .ramp 255 [8388608])).wellFormed = false := by decide +kernel
theorem test_bad_link : (Instr.writeStep .cell 1 0 (runStep .ramp 256 [])).wellFormed = false := by decide
theorem test_bad_head : (Instr.publishPlan .cell 1 256 true).wellFormed = false := by decide
theorem test_bad_cells : (Instr.writeVariant .cell 7 1 (Vector.replicate 16 (-8388609))).wellFormed = false := by decide
theorem test_bad_ordinal : (Instr.readVariant .cell 7 256).wellFormed = false := by decide
theorem test_bad_value : (Instr.writeCell .cell 0 8388608).wellFormed = false := by decide
theorem test_bad_jog : (Instr.jog .cell 0 32768).wellFormed = false := by decide
theorem test_bad_offset : (Instr.peekReport .cell 65536 0).wellFormed = false := by decide
theorem test_bad_sequence : (Instr.takeReport .archive 4294967296).wellFormed = false := by decide

/-- The table gives its rows no bits. -/
theorem test_no_row_has_bits : decodeTableWord 8 0 = none := rfl

/-! ## Worked examples of the manual -/

/-- 09, R165. -/
theorem test_check_of_digits : crc [0x31, 0x32, 0x33, 0x34, 0x35, 0x36, 0x37, 0x38, 0x39] = 0x29B1#16 := by decide +kernel

/-- 09, Byte layouts and the catalogue: HANDOVER of bay D is code 11, length 1, bay 3. -/
theorem test_handover_frame : (requestFrame 0x5A (.handover .line 3)).take 4 = [0x11, 0x5A, 0x01, 0x03] := by decide

/-- 09, Byte layouts: JOG with -300 rpm in two's complement. -/
theorem test_jog_frame : (requestFrame 0 (.jog .cell 1 (-300))).take 6 = [0x45, 0x00, 0x03, 0x01, 0xFE, 0xD4] := by decide

/-- 05, an ambient pressure mean. -/
theorem test_pressure_mean : ({ SensorLink.reset with
    pressure := List.replicate 14 ⟨25250, 0⟩ ++ List.replicate 2 ⟨25251, 0⟩ } : SensorLink).pressureNow = some 101001 := by decide

/-- 05, temperature means below zero: a sum of -41. -/
theorem test_cold_mean : ({ SensorLink.reset with
    temperature := ⟨-41, 0⟩ :: List.replicate 15 ⟨0, 0⟩ } : SensorLink).temperatureNow = some 27312 := by decide

/-- 05, temperature means below zero: the half at -2.5 goes up. -/
theorem test_cold_half : ({ SensorLink.reset with
    temperature := ⟨-40, 0⟩ :: List.replicate 15 ⟨0, 0⟩ } : SensorLink).temperatureNow = some 27313 := by decide

/-- 05, R98, the table of widths: width 12, the least value. -/
theorem test_justify_12 : justify 12 0xF800#16 = -32768 ∧ justify 12 0x07FF#16 = 32752 := by decide

/-- 06, R113 with an angle offset of 63. -/
theorem test_lane : laneOf 0 63 = 1 ∧ laneOf 62 63 = 63 := by decide

/-- 06, a reduction at mesh order 8: the level at 16. -/
theorem test_level : level 6 16 (Vector.ofFn fun i => if i.val % 4 = 0 then 32000 else if i.val % 4 = 2 then -32000 else 0) = 500 := by
  decide +kernel

/-- 06, the saturation limit: row 257 at full scale. -/
theorem test_lane_clamps : clampLane (8388352 + 32767) = 8388607 := by decide

/-- 07, the worked leak: P2c 130,996 and Q 142. -/
theorem test_leak : compensated 131115 33115 33145 = 130996 ∧ leakRate 4 12000 20 Notes.none = (142, Notes.none) := by decide

/-- 07, the limits of the arithmetic: gain and saturated. -/
theorem test_leak_limits : leakRate (-40) 12000 20 Notes.none = (0, ⟨true, false, false⟩) ∧
    leakRate 60 40000 2 Notes.none = (65535, ⟨false, false, true⟩) := by decide

/-- 02, R46: a cell at 1 whose reload cell holds 50. -/
theorem test_audit : ((PlanStore.reset.setCommon 50 50).auditDecrement 58).1 = true ∧
    ((PlanStore.reset.setCommon 50 50).auditDecrement 58).2.commonAt 58 = 50 := by decide

/-- 02, resolving a RAMP step: two indirections and a variant cell. -/
theorem test_indirect :
    let st := { (PlanStore.reset.setCommon 11 778).setCommon 10 259 with variants := [⟨4120, 9, Vector.ofFn fun i => if i.val = 3 then 1800 else 30000⟩] }
    st.resolve 4120 (.indirect 11) = some 1800 ∧ st.resolve 4120 (.variant 7) = some 30000 := by decide

/-- 02, resolving a RAMP step: a fourth INDIRECT faults. -/
theorem test_fourth_indirect :
    (((PlanStore.reset.setCommon 11 778).setCommon 10 775).setCommon 7 780).resolve 4120 (.indirect 11) = none := by decide

/-- 04, a jog stopped by the guard: JOG 450 is clamped to 300 at 200 rpm/s. -/
theorem test_jog_clamped : ∃ t, exec (.jog .cell 0 450) (mapRecord .bayA (fun r => { r with owner := .cell, inputs := ⟨false, false, false, true⟩ }) State.reset) = .next t ∧
    (t.bay .bayA).drive.target = 300 ∧ (t.bay .bayA).drive.rampRate = 200 ∧ (t.bay .bayA).drive.enable = true := ⟨_, rfl, by decide⟩

/-- 04, the checks of a DWELL step: mean torque 411 and peak 498, then an INVALID temperature result with no window. -/
theorem test_dwell : ∃ t, exec (.dwellEnd .bayD) trial = .next t ∧
    ((t.record .bayD).results.take 2).map (fun r => (r.check, r.verdict, r.value1, r.value2)) =
      [(.torque, .pass, 411, 498), (.temperature, .invalid, 0, 0)] := ⟨_, rfl, by decide +kernel⟩

/-- 04, R79: 200,000 milli-rpm at 500 rpm/s toward 0. -/
theorem test_generator : generatorMove 200000 0 500 = 199500 ∧ generatorMove 300 0 500 = 0 ∧ generatorMove (-100) 1 200 = 100 := by decide

/-- 02, loading and publishing plan 5: the first publication stops at foreign slot 30. -/
theorem test_foreign_slot : (((PlanStore.reset.setSlot 20 (some ⟨5, runStep .ramp 30 []⟩)).setSlot 30
    (some ⟨2, runStep .leak 255 []⟩)).judgeChain 5 20 matches .error (.foreignSlot 30)) = true := by decide +kernel

/-- 02, loading and publishing plan 5: four steps and a result bound of 4. -/
theorem test_publish : ((((PlanStore.reset.setSlot 20 (some ⟨5, runStep .ramp 21 []⟩)).setSlot 21
    (some ⟨5, runStep .dwell 22 []⟩)).setSlot 22 (some ⟨5, runStep .listen 40 []⟩)).setSlot 40
    (some ⟨5, runStep .leak 255 []⟩)).judgeChain 5 20 matches .ok ([40, 22, 21, 20], 4) := by decide +kernel

/-- R100: the tick that brings the count to 65,535 empties the window, the one before leaves it. -/
theorem test_tick_empties_window :
    (({ SensorLink.reset with pressure := [⟨7, 0⟩], temperature := [⟨7, 0⟩], pressureSilence := 65534, temperatureSilence := 65533 }
      : SensorLink).tick.pressure = []) ∧
    (({ SensorLink.reset with pressure := [⟨7, 0⟩], temperature := [⟨7, 0⟩], pressureSilence := 65534, temperatureSilence := 65533 }
      : SensorLink).tick.temperature = [⟨7, 0⟩]) := by decide

/-- R178: the line is asserted in the event that expires the timer. -/
theorem test_tick_asserts_line :
    ({ Port.reset 0 with notices := [.backlog], quietTimer := 1 } : Port).tick.ntf = true ∧
    ({ Port.reset 0 with notices := [.backlog], quietTimer := 2 } : Port).tick.ntf = false := by decide

/-- R166: two bytes beyond a frame of six are read as 00. -/
theorem test_extra_bytes : ({ Port.reset 0 with shiftedOut := [1, 2, 3, 4, 5, 6] } : Port).clockOut 8 = [1, 2, 3, 4, 5, 6, 0, 0] := by
  decide

/-- 09, R173 and the report layout: the longest report is 620 bytes, and its last result lies 18 bytes before its end. -/
theorem test_longest_report :
    let r : Report := ⟨some 258, .bayC, List.replicate 20 0x33, 7, 1, 3, .fail, none, none, true, false, some 1, 2, List.replicate 32
      ⟨5, .leak, .leak, .fail, some .grossLeak, 65535, -1, ⟨true, true, false⟩, 3⟩⟩
    (reportBytes r).length = 620 ∧ (reportBytes r).take 14 = [0, 0, 1, 2, 2, 4, 0, 0, 5, 1, 0, 3, 0, 7] ∧
    (reportBytes r).drop 602 = [5, 4, 4, 4, 26, 5, 0, 0, 255, 255, 255, 255, 255, 255, 0, 0, 0, 3] := by decide +kernel

/-- R146: with the mark set no result is posted. -/
theorem test_posted_once : let s := mapLeak .bayD (fun u => { u with posted := true }) State.reset
    ((postLeak .bayD .fail (some .grossLeak) 65535 0 s).record .bayD).results = [] := by decide

/-! ## The invariants at a state under test -/

theorem of_all {α : Type} {o : Option α} {p : α → Prop} [DecidablePred p] (h : (o.all fun a => decide (p a)) = true) :
    ∀ a, o = some a → p a := by
  rintro a rfl; simpa using h

theorem trial_manifold : ManifoldOk trial := forall_bay (by decide) (by decide) (by decide) (by decide)

/-- The reducer's queue and engine against the buffers, bay by bay. -/
def reducerCheck (s : State) : Bool :=
  decide s.reducer.queue.Nodup && allBays.all fun b =>
    ([BufId.a0, BufId.a1].all fun k =>
      decide ((b, k) ∈ s.reducer.queue ↔ (s.buf b k).state = .queued) &&
      decide (s.reducer.engine.map (fun j => (j.bay, j.buf)) = some (b, k) ↔ (s.buf b k).state = .reducing)) &&
    decide ((s.record b).pendingReductions = (s.buf b .a0).pending + (s.buf b .a1).pending)

theorem reducerOk_of {s : State} (h : reducerCheck s = true) : ReducerOk s := by
  simp only [reducerCheck, allBays, List.all_cons, List.all_nil, Bool.and_eq_true, Bool.and_true, decide_eq_true_eq] at h
  obtain ⟨hn, ha, hb, hc, hd⟩ := h
  have e : ∀ b k, (∃ t, s.reducer.engine = some ⟨b, k, t⟩) ↔ s.reducer.engine.map (fun j => (j.bay, j.buf)) = some (b, k) := by
    intro b k
    rcases s.reducer.engine with _ | ⟨b', k', t⟩ <;> simp
  refine ⟨?_, hn, ?_, ?_⟩
  · intro b k; cases b <;> cases k <;> simp_all
  · intro b k; rw [e]; cases b <;> cases k <;> simp_all
  · intro b; cases b <;> simp_all

/-- The step phases against the blocks, bay by bay. -/
def stepsCheck (s : State) : Bool :=
  decide s.manifold.queue.Nodup && decide (s.manifold.queue ≠ [] → s.manifold.granted ≠ none) && allBays.all fun b =>
    let x := s.bay b
    let acquiring := x.noise.a0.state = .acquiring ∨ x.noise.a1.state = .acquiring
    decide (x.record.phase ≠ .none → x.record.state = .running) &&
    decide (x.leak.phase.step = if x.record.phase.ofLeak then x.record.phase else .none) &&
    decide (acquiring ↔ x.record.phase = .listening) &&
    decide (¬(x.noise.a0.state = .acquiring ∧ x.noise.a1.state = .acquiring)) &&
    decide (x.noise.row = .idle ↔ x.record.phase ≠ .listening) && decide (x.drive.dwell ≠ none → x.record.phase = .dwelling) &&
    decide (b ∈ s.manifold.queue ↔ x.leak.phase = .fillWait) && decide (s.manifold.granted = some b ↔ x.leak.phase = .fill)

theorem stepsOk_of {s : State} (h : stepsCheck s = true) : StepsOk s := by
  simp only [stepsCheck, Bool.and_eq_true, decide_eq_true_eq, List.all_eq_true] at h
  obtain ⟨⟨hn, hb⟩, hx⟩ := h
  have ha : ∀ b, b ∈ allBays := by intro b; cases b <;> decide
  exact ⟨fun b => let ⟨⟨⟨⟨⟨⟨⟨a1, a2⟩, a3⟩, a4⟩, a5⟩, a6⟩, _⟩, _⟩ := hx b (ha b); ⟨a1, a2, a3, a4, a5, a6⟩,
    fun b => (hx b (ha b)).1.2, hn, fun b => (hx b (ha b)).2, hb⟩

/-- The drives against their owners and states, bay by bay. -/
def drivesCheck (s : State) : Bool :=
  allBays.all fun b =>
    let c := (s.bay b).config
    let d := (s.bay b).drive
    let o := (s.record b).owner
    let st := (s.record b).state
    ownerAdmitted st o && decide (100 ≤ c.speedLimit ∧ c.speedLimit ≤ 3000) && decide (12 ≤ c.wordWidth ∧ c.wordWidth ≤ 16) &&
    decide (c.angleOffset ≤ 63) && decide (d.target.natAbs ≤ c.speedLimit) && decide (d.x.natAbs ≤ 1000 * c.speedLimit) &&
    decide (o = .line → d.enable = false ∧ d.target = 0 ∧ d.x = 0 ∧ d.jogTarget = 0) &&
    decide (o = .sequencer → d.enable = true ∧ d.jogTarget = 0) &&
    decide (o = .cell → d.target = d.jogTarget ∧ (d.enable = true ↔ d.jogTarget ≠ 0 ∨ d.x ≠ 0)) && decide (d.jogTarget.natAbs ≤ 300) &&
    decide (d.missed ≤ 20 ∧ (d.enable = false → d.missed = 0)) && decide (d.windDown ≠ .none ↔ st = .closing ∨ st = .aborting)

theorem drivesOk_of {s : State} (h : drivesCheck s = true) : DrivesOk s := by
  simp only [drivesCheck, Bool.and_eq_true, decide_eq_true_eq, List.all_eq_true] at h
  have ha : ∀ b, b ∈ allBays := by intro b; cases b <;> decide
  refine ⟨fun b => ?_, fun b => ?_, fun b => ?_⟩ <;>
    obtain ⟨⟨⟨⟨⟨⟨⟨⟨⟨⟨⟨a1, a2⟩, a3⟩, a4⟩, a5⟩, a6⟩, a7⟩, a8⟩, a9⟩, a10⟩, a11⟩, a12⟩ := h b (ha b)
  · exact a1
  · exact ⟨a2, a3, a4⟩
  · exact ⟨a5, a6, a7, a8, a9, a10, a11, a12⟩

theorem trial_reducer : ReducerOk trial := reducerOk_of (by decide +kernel)
theorem trial_steps : StepsOk trial := stepsOk_of (by decide +kernel)

theorem trial_queue : QueueOk trial :=
  ⟨by decide, fun h => absurd rfl h, .cons_cons ⟨1, rfl, by decide, by decide, rfl⟩ (.singleton _), by decide⟩

theorem trial_verdicts : VerdictsOk trial := ⟨forall_bay (by decide) (by decide) (by decide) (by decide), by decide⟩

theorem trial_notices : NoticesOk trial :=
  forall_port ⟨by decide, by decide, by decide, by decide, by decide, by decide⟩
    ⟨by decide, by decide, by decide, by decide, by decide, by decide⟩
    ⟨by decide, by decide, by decide, by decide, by decide, by decide⟩

theorem trial_custody : CustodyOk trial :=
  ⟨forall_bay (by decide) (by decide) (by decide) (by decide), by decide, forall_bay (by decide) (by decide) (by decide) (by decide),
    forall_bay (by decide) (by decide) (by decide) (by decide)⟩

theorem fits_of {o : Option Response} (h : (o.all fun r : Response => decide (r.payload.length ≤ 56)) = true) : ∀ r, o = some r → r.Fits :=
  of_all (p := fun r : Response => r.payload.length ≤ 56) h

theorem trial_frames : FramesOk trial :=
  ⟨forall_port (fits_of rfl) (fits_of rfl) (fits_of rfl), forall_port (fits_of rfl) (fits_of rfl) (fits_of rfl),
    forall_port (by decide) (by decide) (by decide), forall_bay (of_all rfl) (of_all rfl) (of_all rfl) (of_all rfl)⟩

theorem trial_variants : VariantsOk trial := ⟨by decide, by decide, by decide⟩

/-- Each plan number is one of sixteen. -/
theorem plan_of {n : Nat} (h : isPlanNumber n = true) : n < 17 := by
  simp only [isPlanNumber, Bool.and_eq_true, decide_eq_true_eq] at h; omega

theorem trial_countdown : CountdownOk trial := by
  intro i h
  have : ∀ i, i < 64 → isCountdown i = true → 1 ≤ trial.store.commonAt i ∧ trial.store.commonAt i ≤ 65535 := by decide +kernel
  refine this i ?_ h
  simp only [isCountdown, Bool.and_eq_true, decide_eq_true_eq] at h; omega

theorem trial_settings : SettingsOk trial := ⟨by decide, by decide, by decide, by decide⟩

theorem trial_drives : DrivesOk trial := drivesOk_of (by decide +kernel)

theorem trial_plans : PlansOk trial := by
  refine ⟨?_, ?_, ?_⟩
  · intro k
    have h : ∀ k, k < 255 → ((trial.store.slotAt k).all fun o =>
        decide (isPlanNumber o.plan = true ∧ (trial.store.entry o.plan).state ≠ .empty)) = true := by decide +kernel
    by_cases hk : k < 255
    · exact of_all (h k hk)
    · intro o ho
      simp [PlanStore.slotAt, Nat.not_lt.mp hk] at ho
  · intro n hn h
    have : ∀ n, n < 17 → (trial.store.entry n).state = .ready ∨ (trial.store.entry n).state = .retiring → n = 1 := by decide +kernel
    obtain rfl := this n (plan_of hn) h
    exact ⟨0, [1, 0], 3, by decide, rfl, by decide, by decide⟩
  · intro n hn
    have : ∀ n, n < 17 → (trial.store.entry n).state = .empty ∨ (trial.store.entry n).state = .loading →
      (trial.store.entry n).head = none ∧ (trial.store.entry n).stepCount = none ∧ (trial.store.entry n).resultBound = none ∧
        (trial.store.entry n).endOnFail = false := by decide +kernel
    exact this n (plan_of hn)

theorem trial_references : ReferencesOk trial := by
  refine ⟨by decide, ?_, ?_, by decide, by decide⟩
  · intro n hn
    have : ∀ n, n < 17 → (trial.store.entry n).refCount = walkersOf trial n := by decide +kernel
    exact this n (plan_of hn)
  · intro n hn
    have : ∀ n, n < 17 → (trial.store.entry n).state = .empty ∨ (trial.store.entry n).state = .loading →
      (trial.store.entry n).refCount = 0 := by decide +kernel
    exact this n (plan_of hn)

/-- The hypotheses of the statements on what every step keeps hold together at a state under test, whose step answers next. -/
theorem witness_every_step : ∃ t, step trial = .next t ∧ ManifoldOk trial ∧ ReducerOk trial ∧ QueueOk trial ∧ VerdictsOk trial ∧
    NoticesOk trial ∧ CustodyOk trial ∧ FramesOk trial ∧ VariantsOk trial ∧ CountdownOk trial ∧ SettingsOk trial ∧ PlansOk trial ∧
    StepsOk trial ∧ ReferencesOk trial ∧ DrivesOk trial :=
  ⟨_, rfl, trial_manifold, trial_reducer, trial_queue, trial_verdicts, trial_notices, trial_custody, trial_frames, trial_variants,
    trial_countdown, trial_settings, trial_plans, trial_steps, trial_references, trial_drives⟩

/-! ## Witnesses of the statements' hypotheses

Each theorem meets the hypotheses of one statement, clause by clause, at a boundary of each range. -/

theorem witness_StepExecutesFrontCommand : State.reset.pending = [] ∧ ∃ t, exec (.nop .line) State.reset = .next t := ⟨rfl, _, rfl⟩

theorem witness_ResetGivesPowerOnValues : isPlanNumber 1 = true ∧ isPlanNumber 16 = true ∧ isCountdown 56 = true ∧ isCountdown 63 = true := by
  decide

theorem witness_RefusedCommandChangesNothing :
    (portOf (.cellRun .line) = some .line ∧ .line ∉ carriedOn (.cellRun .line)) ∧
    ∃ t r, exec (.handover .line 4) trial = .next t ∧ (t.port .line).preparing = some r ∧ r.status ≠ .ok :=
  ⟨by decide, _, _, rfl, rfl, by decide⟩

theorem witness_BayEventsKeepOtherBays : bayOf (.hold .cell 3) = some .bayD ∧ BayId.bayC ≠ .bayD ∧
    portOf (.hold .cell 3) ≠ some .line ∧ ∃ t, exec (.hold .cell 3) trial = .next t := ⟨rfl, by decide, by decide, _, rfl⟩

theorem witness_PublishedStepsAreNotWritten : ∃ t o, exec (.writeStep .cell 5 0 (runStep .ramp 255 [])) trial = .next t ∧
    trial.store.slotAt 0 = some o ∧ isPlanNumber o.plan = true ∧ (trial.store.entry o.plan).state = .ready :=
  ⟨_, _, rfl, rfl, by decide, by decide⟩

theorem witness_RequestFrameRoundTrip : (Instr.handover .line 255).wellFormed = true ∧
    portOf (.handover .line 255) = some .line ∧ .line ∈ carriedOn (.handover .line 255) := by decide

/-- A window of 16 samples of one value. -/
def window (v : Int) (t : Time) : List Sample := List.replicate 16 ⟨v, t⟩

theorem witness_TemperatureMeanRoundsHalfUp :
    SensorLink.reset.temperature.length ≠ 16 ∧ (window (-4000) 0).length = 16 ∧
    (∀ x ∈ window (-4000) 0, -4000 ≤ x.word ∧ x.word ≤ 15000) ∧ ∀ x ∈ window 15000 0, -4000 ≤ x.word ∧ x.word ≤ 15000 := by decide

/-- Windows of 16 pressure words at both ends of their range, of 15, and a head sample of the very time and of one millisecond before. -/
theorem witness_TemperatureMeanRoundsHalfUp_pressure :
    (List.replicate 15 (⟨0, 0⟩ : Sample)).length ≠ 16 ∧ (∀ x ∈ window 0 5, 0 ≤ x.word ∧ x.word ≤ 65535) ∧
    (∀ x ∈ window 65535 5, 0 ≤ x.word ∧ x.word ≤ 65535) ∧ (∃ x rest, window 65535 5 = x :: rest ∧ x.time = 5) ∧
    ((9 : Time) - 5).toNat ≤ ((9 : Time) - 5).toNat ∧ ¬((9 : Time) - 4).toNat ≤ ((9 : Time) - 5).toNat :=
  ⟨by decide, by decide, by decide, ⟨_, _, rfl, rfl⟩, by decide⟩

theorem witness_NoiseLevelIsBounded : ∀ i : Fin Config.laneCount,
    -32768 * 2 ^ 10 ≤ (Vector.replicate Config.laneCount (32767 * 2 ^ 10 : Int))[i] ∧
      (Vector.replicate Config.laneCount (32767 * 2 ^ 10 : Int))[i] ≤ 32767 * 2 ^ 10 := by decide +kernel

theorem witness_LeakPressureIsCompensated : (0 : Int) ≤ 262140 ∧ (23315 : Int) ≤ 42315 ∧ compensated 262140 42315 42315 = 262140 := by decide

theorem witness_LeakRateIsBanded : (leakRate (-1) 2000 60 Notes.none).1 = 0 ∧ (leakRate 0 40000 2 Notes.none).1 = 0 := by decide

theorem witness_AuditDecrementReloads :
    (isCountdown 56 = true ∧ PlanStore.reset.commonAt 56 = 1) ∧
    isCountdown 63 = true ∧ (PlanStore.reset.setCommon 63 65535).commonAt 63 = 65535 := by decide

/-- A state that differs from `trial` in bay D. -/
def withD (f : Bay → Bay) : State := mapBay .bayD f trial
def withRecord (f : BayRecord → BayRecord) : State := withD fun x => { x with record := f x.record }
def withDrive (f : DriveLink → DriveLink) : State := withD fun x => { x with drive := f x.drive }

/-- Bay D in manual operation, its jog at 300 rpm. -/
def manual : State := withD fun _ =>
  { Bay.reset with
    record := { BayRecord.reset with owner := .cell, inputs := ⟨false, false, false, true⟩ }
    drive := { DriveLink.reset with x := 1000, target := 300, jogTarget := 300, enable := true, missed := 20, awaited := some 255 } }

theorem witness_MillisecondTickAdvancesEverything :
    (∀ b, (State.reset.record b).phase ≠ .ramping ∧ (State.reset.record b).phase ≠ .tracking ∧
      (State.reset.bay b).drive.windDown = .none) ∧
    ((trial.record .bayD).phase ≠ .ramping ∧ (trial.record .bayD).phase ≠ .tracking ∧ (trial.bay .bayD).drive.windDown = .none ∧
      (trial.record .bayD).owner ≠ .cell) ∧ (manual.record .bayD).owner = .cell ∧ (manual.record .bayD).phase = .none ∧
    (manual.bay .bayD).drive.windDown = .none :=
  ⟨forall_bay (by decide) (by decide) (by decide) (by decide), by decide, by decide⟩

/-- Bay D ramps with x at its target. -/
def ramping : State := withD fun x =>
  { x with record := { x.record with phase := .ramping, latched := some (.ramp rampOps) }, drive := { x.drive with dwell := none } }

/-- The bay above when its last report showed a speed. -/
def running (speed : Int) : State := mapDrive .bayD (fun d => { d with latest := some ⟨.running, speed, 0⟩ }) ramping

theorem witness_MillisecondTickAdvancesEverything_ramp :
    (ramping.record .bayD).owner = .sequencer ∧ (ramping.record .bayD).phase = .ramping ∧
    (ramping.record .bayD).latched = some (.ramp rampOps) ∧ (ramping.bay .bayD).drive.windDown = .none ∧
    generatorMove (ramping.bay .bayD).drive.x (ramping.bay .bayD).drive.target (ramping.bay .bayD).drive.rampRate = rampOps.target * 1000 ∧
    generatorMove 599800 600 200 = rampOps.target * 1000 ∧ generatorMove 599799 600 200 ≠ rampOps.target * 1000 ∧
    ((((running 580).bay .bayD).drive.latest.elim 0 (·.speed)) - rampOps.target).natAbs ≤ rampOps.tolerance ∧
    rampOps.tolerance < ((((running 579).bay .bayD).drive.latest.elim 0 (·.speed)) - rampOps.target).natAbs := by decide

theorem witness_DriveReportIsTaken :
    reportCheck 255 .running 600 100 + 1 ≠ crc ([255, BitVec.ofNat 8 (driveStateCode .running)] ++ bytesOf 2 600 ++ bytesOf 2 100) ∧
    reportCheck 255 .running 600 100 = crc ([255, BitVec.ofNat 8 (driveStateCode .running)] ++ bytesOf 2 600 ++ bytesOf 2 100) ∧
    (trial.bay .bayD).drive.awaited ≠ some 254 ∧ (trial.bay .bayD).drive.awaited = some 255 ∧
    (trial.bay .bayD).drive.windDown = .none ∧ (trial.record .bayD).phase ≠ .ramping ∧ (trial.record .bayD).phase ≠ .tracking ∧
    (ramping.record .bayD).phase = .ramping ∧ (ramping.record .bayD).latched = some (.ramp rampOps) ∧
    (ramping.bay .bayD).drive.x = rampOps.target * 1000 ∧ ((580#16).toInt - rampOps.target).natAbs ≤ rampOps.tolerance ∧
    rampOps.tolerance < ((579#16).toInt - rampOps.target).natAbs ∧ (manual.bay .bayD).drive.x ≠ rampOps.target * 1000 := by decide +kernel

theorem witness_ManualEventsStopJog :
    (manual.record .bayD).owner = .cell ∧ (manual.bay .bayD).drive.enable = true ∧ (manual.bay .bayD).drive.missed = 20 ∧
    (manual.bay .bayD).drive.lostGiven = false ∧ (manual.bay .bayD).drive.awaited = some 255 ∧
    (manual.bay .bayD).drive.faultSeen = false ∧ (manual.record .bayD).phase = .none ∧ (manual.bay .bayD).drive.windDown = .none ∧
    (manual.record .bayD).inputs.grd = true ∧ (manual.record .bayD).state = .empty ∧ bayOfCode 3 = some .bayD := by decide

/-- Bay D under test with twenty reports missed and both channels of its loss watch at their limits. -/
def faulty : State := withD fun x =>
  { x with drive := { x.drive with missed := 20 }, sensor := { x.sensor with lossWatch := some ⟨100, 1000, false⟩ } }

/-- Bay D in HELD for exactly 600,000 ms, in VENT for exactly 10,000 ms, and in a RAMP step for exactly its timeout. -/
def held : State := withD fun x =>
  { x with
    record := { x.record with state := .held, phase := .none, holdStart := some 400000, holdPoint := some .after }
    drive := { x.drive with dwell := none } }
def venting (speed : Int) : State := withD fun x =>
  { x with
    record := { x.record with phase := .vent, latched := some (.leak leakOps) }
    drive := { x.drive with x := 0, target := 0, latest := some ⟨.running, speed, 0⟩, dwell := none }
    leak := { LeakUnit.reset with phase := .vent, ops := some leakOps, phaseStart := some 990000, ambient := some 101000 } }
def timedOut : State := mapRecord .bayD (fun r => { r with stepStart := some 940000 }) ramping

/-- Bay C in CLOSING, its wind-down over, waiting for its two reductions. -/
def windDownOver : State := mapBay .bayC (fun x =>
  { x with
    record := { x.record with state := .closing, phase := .none }
    drive := { x.drive with x := 0, target := 0, latest := some ⟨.running, 100, 0⟩, windDown := .over } }) trial

theorem witness_FaultsAndAbortsEnterAborting_events :
    ReducerOk faulty ∧ StepsOk faulty ∧ DrivesOk faulty ∧ (faulty.record .bayD).state.abortable ∧ Turning .bayD faulty ∧
    (faulty.bay .bayD).drive.missed = 20 ∧ (faulty.bay .bayD).drive.lostGiven = false ∧
    (faulty.bay .bayD).drive.awaited = some 255 ∧ (faulty.bay .bayD).drive.faultSeen = false ∧
    (faulty.bay .bayD).sensor.lossWatch = some ⟨100, 1000, false⟩ ∧ (faulty.record .bayD).inputs.get .grd = true ∧
    bayOfCode 3 = some .bayD :=
  ⟨reducerOk_of (by decide +kernel), stepsOk_of (by decide +kernel), drivesOk_of (by decide +kernel), .inl rfl,
    ⟨by decide, .inl (by decide)⟩, by decide⟩

theorem witness_FaultsAndAbortsEnterAborting_limits :
    (ReducerOk timedOut ∧ StepsOk timedOut ∧ DrivesOk timedOut ∧ (timedOut.record .bayD).state.abortable ∧
      (timedOut.record .bayD).phase = .ramping ∧ (timedOut.record .bayD).latched = some (.ramp rampOps) ∧
      (timedOut.record .bayD).stepStart = some 940000 ∧ rampOps.timeout ≤ elapsed timedOut.now 940000 ∧
      elapsed timedOut.now 940001 < rampOps.timeout) ∧
    (ReducerOk held ∧ StepsOk held ∧ DrivesOk held ∧ (held.record .bayD).state = .held ∧
      (held.record .bayD).holdStart = some 400000 ∧ 600000 ≤ elapsed held.now 400000) ∧
    (∀ speed, speed = 5 ∨ speed = -6 → ReducerOk (venting speed) ∧ StepsOk (venting speed) ∧ DrivesOk (venting speed)) ∧
    ((venting 5).record .bayD).state.abortable ∧ ((venting 5).bay .bayD).leak.phase = .vent ∧
      ((venting 5).bay .bayD).leak.phaseStart = some 990000 ∧ 10000 ≤ elapsed (venting 5).now 990000 ∧
      elapsed (venting 5).now 990001 < 10000 :=
  ⟨⟨reducerOk_of (by decide +kernel), stepsOk_of (by decide +kernel), drivesOk_of (by decide +kernel), .inl rfl, by decide⟩,
    ⟨reducerOk_of (by decide +kernel), stepsOk_of (by decide +kernel), drivesOk_of (by decide +kernel), by decide⟩,
    by
      rintro _ (rfl | rfl) <;>
        exact ⟨reducerOk_of (by decide +kernel), stepsOk_of (by decide +kernel), drivesOk_of (by decide +kernel)⟩,
    .inl rfl, by decide⟩

/-- The two sides of `Turning`: a speed of 6 rpm turns, 5 rpm at x = 0 does not, nor does a bay whose wind-down is over. -/
theorem witness_FaultsAndAbortsEnterAborting_rest :
    Turning .bayD (venting (-6)) ∧ ¬Turning .bayD (venting 5) ∧ ReducerOk windDownOver ∧ StepsOk windDownOver ∧
    DrivesOk windDownOver ∧ (windDownOver.record .bayC).state.abortable ∧ ¬Turning .bayC windDownOver :=
  ⟨⟨by decide, .inr (by decide)⟩, fun h => absurd h.2 (by decide), reducerOk_of (by decide +kernel), stepsOk_of (by decide +kernel),
    drivesOk_of (by decide +kernel), .inr (.inr rfl), fun h => absurd rfl h.1⟩

theorem witness_FaultsAndAbortsEnterAborting_idle :
    (State.reset.bay .bayD).drive.enable = false ∧ (trial.record .bayD).phase ≠ .ramping ∧ (trial.record .bayD).phase ≠ .tracking ∧
    (State.reset.bay .bayD).sensor.lossWatch = none ∧ (trial.bay .bayD).sensor.lossWatch = some ⟨0, 0, false⟩ ∧
    (trial.bay .bayD).leak.phase ≠ .vent ∧ bayOfCode 0 = some .bayA ∧ ¬(trial.record .bayA).state.abortable ∧
    (trial.record .bayA).state ≠ .aborting :=
  ⟨by decide, by decide, by decide, by decide, by decide, by decide, by decide, by simp only [BayState.abortable]; decide, by decide⟩

/-- Bay D in ABORTING or CLOSING with a wind-down of exactly 10,000 ms and x at 0. -/
def ending (st : BayState) : State := withD fun x =>
  { x with
    record := { x.record with state := st, phase := .none, cause := if st = .aborting then some .cellAbort else none }
    drive := { x.drive with x := 0, target := 0, missed := 20, windDown := .inProgress 990000, dwell := none }
    sensor := { x.sensor with lossWatch := some ⟨100, 1000, false⟩ } }

theorem witness_AbortingRecordsFirstFault :
    ((ending .aborting).record .bayD).state = .aborting ∧ ((ending .aborting).record .bayD).owner = .sequencer ∧
    ((ending .aborting).bay .bayD).drive.enable = true ∧ ((ending .aborting).bay .bayD).drive.missed = 20 ∧
    ((ending .aborting).bay .bayD).drive.lostGiven = false ∧
    ((ending .aborting).bay .bayD).sensor.lossWatch = some ⟨100, 1000, false⟩ ∧
    ((ending .aborting).record .bayD).inputs = ⟨true, true, true, true⟩ ∧ bayOfCode 3 = some .bayD ∧
    ((ending .aborting).bay .bayD).drive.awaited = some 255 ∧ ((ending .aborting).bay .bayD).drive.faultSeen = false ∧
    ((ending .aborting).record .bayD).phase = .none ∧ ((ending .aborting).bay .bayD).drive.windDown = .inProgress 990000 ∧
    ((ending .aborting).bay .bayD).drive.x = 0 ∧ 5 < (-6#16 : BitVec 16).toInt.natAbs ∧ (5#16).toInt.natAbs ≤ 5 ∧
    (let s := mapDrive .bayA (fun d => { d with awaited := some 0 }) trial;
      (s.record .bayA).owner = .line ∧ (s.record .bayA).phase = .none ∧ (s.bay .bayA).drive.windDown = .none ∧
      (s.bay .bayA).drive.awaited = some 0 ∧ (s.bay .bayA).drive.faultSeen = false) := by decide

theorem witness_MillisecondTickAdvancesEverything_windDown :
    ((ending .aborting).record .bayD).owner = .sequencer ∧ ((ending .aborting).record .bayD).phase = .none ∧
    ((ending .aborting).bay .bayD).drive.windDown = .inProgress 990000 ∧ generatorMove 200 0 200 = 0 ∧ generatorMove 201 0 200 ≠ 0 ∧
    (((ending .aborting).bay .bayD).drive.latest.elim 0 (·.speed)).natAbs ≤ 5 ∧ ((ending .aborting).record .bayD).state = .aborting ∧
    ((ending .closing).record .bayD).state = .closing ∧ ((ending .closing).record .bayD).pendingReductions = 0 ∧
    ((mapRecord .bayD (fun r => { r with pendingReductions := 1 }) (ending .closing)).record .bayD).pendingReductions ≠ 0 := by decide

/-- A taken report that does not end the wind-down in progress, by its speed or by x, and one that finds it over in CLOSING. -/
theorem witness_DriveReportIsTaken_windDown :
    ((ending .aborting).record .bayD).phase = .none ∧ ((ending .aborting).bay .bayD).drive.windDown = .inProgress 990000 ∧
    5 < (6#16).toInt.natAbs ∧ ((mapDrive .bayD (fun d => { d with x := 1 }) (ending .closing)).bay .bayD).drive.x ≠ 0 ∧
    (windDownOver.record .bayC).phase = .none ∧ (windDownOver.bay .bayC).drive.windDown = .over ∧
    (windDownOver.record .bayC).state = .closing ∧ (windDownOver.record .bayC).pendingReductions ≠ 0 ∧
    (windDownOver.bay .bayC).drive.awaited = some 255 := by decide

theorem witness_WindDownEndsInFinished :
    (((ending .aborting).bay .bayD).drive.awaited = some 255 ∧ ((ending .aborting).record .bayD).phase = .none ∧
      ((ending .aborting).bay .bayD).drive.windDown = .inProgress 990000 ∧ ((ending .aborting).bay .bayD).drive.x = 0 ∧
      (-5#16 : BitVec 16).toInt.natAbs ≤ 5 ∧ ((ending .aborting).record .bayD).state = .aborting) ∧
    (((ending .closing).record .bayD).state = .closing ∧ ((ending .closing).record .bayD).pendingReductions = 0) ∧
    ((mapRecord .bayD (fun r => { r with pendingReductions := 1 }) (ending .closing)).record .bayD).pendingReductions ≠ 0 ∧
    10000 ≤ elapsed (ending .closing).now 990000 ∧ elapsed (ending .closing).now 990001 < 10000 := by decide

theorem witness_HoldLimitRunsFromHoldStart :
    ((held.record .bayD).state = .held ∧ (held.record .bayD).holdStart = some 400000 ∧ 600000 ≤ elapsed held.now 400000 ∧
      elapsed held.now 400001 < 600000) ∧ (trial.record .bayD).state ≠ .held ∧
    ∃ t, exec (.hold .cell 2) trial = .next t ∧ (trial.record .bayC).state ≠ .held ∧ (t.record .bayC).state = .held :=
  ⟨by decide, by decide, _, rfl, by decide, by decide⟩

theorem witness_DwellEndPostsTorqueThenTemperature :
    (band 450 450 450 = .pass ∧ band 600 450 600 = .marginal ∧ band 601 450 600 = .fail) ∧
    ((trial.record .bayD).phase = .dwelling ∧ (trial.record .bayD).state = .running ∧
      (trial.record .bayD).latched = some (.dwell dwellOps) ∧ (trial.record .bayD).stepStart = some 0 ∧
      (trial.bay .bayD).drive.dwell = some ⟨29998, 12314200, 498⟩ ∧ dwellOps.duration ≤ elapsed trial.now 0) ∧
    (elapsed trial.now 970000 = dwellOps.duration ∧ elapsed trial.now 970001 < dwellOps.duration) ∧
    (trial.record .bayD).startTemperature = some 30815 ∧
    ({ SensorLink.reset with temperature := window 5800 999999 } : SensorLink).temperatureSince trial.now 0 = some 33115 ∧
    (trial.bay .bayD).sensor.temperatureSince trial.now 0 = none := by decide

theorem witness_SampleWordsFillWindows :
    (trial.bay .bayD).leak.phase ≠ .ambient ∧ (trial.bay .bayD).leak.phase ≠ .fill ∧ (trial.bay .bayD).leak.phase ≠ .vent ∧
    (0x03FFFF#24).extractLsb' 22 2 = 0#2 ∧ (trial.bay .bayD).sensor.pressureSilence = 65535 ∧
    (trial.bay .bayD).sensor.temperatureSilence = 65535 ∧
    ({ SensorLink.reset with pressureSilence := 65534 } : SensorLink).pressureSilence < 65535 := by decide

theorem witness_VibrationWordsAreJustified : 12 ≤ (trial.bay .bayD).config.wordWidth ∧ (trial.bay .bayD).config.wordWidth ≤ 16 := by decide

/-- The buffer A0 of bay D is ACQUIRING in the row state given, one revolution short of its sixteen, with its slip allowance used. -/
def acquiring (row : RowState) (staging : List Int) : State := withD fun x =>
  { x with
    record := { x.record with phase := .listening, slot := some 1, latched := some (.listen listenOps) }
    drive := { x.drive with dwell := none }
    noise := { NoiseUnit.reset with
      a0 := { ListenBuffer.acquire 999000 listenOps (some 1) with revolutions := 15 }, row := row, staging := staging } }

theorem witness_VibrationWordAssemblesRow :
    (trial.bay .bayD).config.angleOffset ≤ 63 ∧ (trial.bay .bayD).noise.row = .idle ∧
    ((acquiring .hunting []).bay .bayD).noise.find .acquiring = some .a0 ∧ ((acquiring .hunting []).bay .bayD).noise.row = .hunting ∧
    ((acquiring (.inRow 62) []).bay .bayD).noise.row = .inRow 62 ∧ (62 + 64 - 0) % 64 = 62 ∧
    ((mapBuf .bayD .a0 (fun y => { y with ops := some { listenOps with slipAllowance := 1 } }) (acquiring (.inRow 63) [])).buf .bayD .a0).ops =
      some { listenOps with slipAllowance := 1 } ∧
    ((acquiring (.inRow 63) []).buf .bayD .a0).slips + 1 ≤ ({ listenOps with slipAllowance := 1 } : ListenOps).slipAllowance := by decide

theorem witness_AcquisitionEndsAsItsRowsGive :
    ((acquiring (.inRow 63) (List.replicate 63 0)).bay .bayD).noise.find .acquiring = some .a0 ∧
    ((acquiring (.inRow 63) (List.replicate 63 0)).buf .bayD .a0).ops = some listenOps ∧ 4 ≤ listenOps.exponent ∧
    ((acquiring (.inRow 63) (List.replicate 63 0)).record .bayD).state = .running ∧
    ((acquiring (.inRow 63) (List.replicate 63 0)).bay .bayD).noise.row = .inRow 63 ∧
    ((acquiring (.inRow 63) (List.replicate 63 0)).bay .bayD).noise.staging.length = 63 ∧ (63 + 64 - 0) % 64 = 63 ∧
    2 ^ listenOps.exponent.toNat ≤ 15 + 1 ∧ 14 + 1 < 2 ^ listenOps.exponent.toNat ∧
    (acquiring (.inRow 63) []).reducer.engine ≠ none ∧ State.reset.reducer = ⟨[], none⟩ ∧
    listenOps.slipAllowance < ((acquiring (.inRow 0) []).buf .bayD .a0).slips + 1 ∧
    ((acquiring .hunting []).buf .bayD .a0).acquisitionStart = some 999000 ∧
    listenOps.timeout ≤ elapsed trial.now 999000 ∧ elapsed trial.now 999001 < listenOps.timeout := by decide

theorem witness_ReductionPostsNoiseResult :
    trial.reducer.engine = some ⟨.bayC, .a0, 999998⟩ ∧ (trial.buf .bayC .a0).ops = some listenOps ∧
    2 ≤ elapsed trial.now 999998 ∧ elapsed trial.now 999999 < 2 ∧ (trial.record .bayC).state = .running ∧
    trial.reducer.queue = [(.bayC, .a1)] ∧
    ((mapRecord .bayC (fun r => { r with phase := .ramping }) trial).record .bayC).phase ≠ .bufferWait ∧
    ((mapRecord .bayC (fun r => { r with phase := .ramping }) trial).record .bayC).phase ≠ .entryWait ∧
    ({ trial with reducer := { trial.reducer with queue := [] } }).reducer.queue = [] := by decide

theorem witness_ReductionPostsNoiseResult_waiting :
    (windDownOver.record .bayC).state = .closing ∧ (windDownOver.bay .bayC).drive.windDown = .over ∧
    ((trial.record .bayC).phase = .entryWait ∧ (trial.record .bayC).slot = some 1 ∧ (trial.record .bayC).endRequest = false ∧
      (trial.record .bayC).pendingReductions - 1 ≠ 0) ∧
    ((mapRecord .bayC (fun r => { r with pendingReductions := 1 }) trial).record .bayC).pendingReductions - 1 = 0 ∧
    (let s := mapRecord .bayC (fun r => { r with phase := .bufferWait, latched := some (.listen listenOps) }) trial;
      (s.record .bayC).state = .running ∧ (s.record .bayC).latched = some (.listen listenOps)) ∧
    ((mapRecord .bayC (fun r => { r with state := .held, phase := .none }) trial).record .bayC).state = .held ∧
    ((mapBuf .bayC .a0 (fun x => { x with discard := true }) trial).buf .bayC .a0).discard = true := by decide

/-- Bay D in a phase of its LEAK step that began 5,000 ms ago, with full windows of 101,000 Pa and 58.00 degrees. -/
def leaking (ph : LeakPhase) : State := withD fun x =>
  { x with
    record := { x.record with phase := ph.step, latched := some (.leak leakOps), stepStart := some 0 }
    drive := { x.drive with dwell := none }
    sensor := { x.sensor with pressure := window 25250 999999, temperature := window 5800 999999 }
    leak := { LeakUnit.reset with phase := ph, ops := some leakOps, phaseStart := some 995000, ambient := some 101000,
                                  startMeans := if ph = .measure then some (101000, 33115) else none } }

/-- Bay D in FILL, with the manifold its own and bay B's fill ended. -/
def filling : State :=
  { mapBay .bayB (fun _ => Bay.reset) (mapRecord .bayD (fun r => { r with lines := { r.lines with fill := true } }) (leaking .fill)) with
    manifold := ⟨some .bayD, []⟩ }

theorem witness_PressureSamplesDriveLeakTest_ambient :
    StepsOk (leaking .ambient) ∧ ((leaking .ambient).bay .bayD).leak.ops = some leakOps ∧
    ((leaking .ambient).record .bayD).owner = .sequencer ∧ ((leaking .ambient).record .bayD).state = .running ∧
    ((leaking .ambient).bay .bayD).leak.phaseStart = some 995000 ∧ ((leaking .ambient).bay .bayD).leak.phase = .ambient ∧
    (((leaking .ambient).bay .bayD).sensor.takePressure 1000000 25250).pressureSince 1000000 995000 = some 101000 ∧
    ((trial.bay .bayD).sensor.takePressure 1000000 25250).pressureSince 1000000 995000 = none ∧
    (leaking .ambient).manifold.granted = some .bayB ∧
    StepsOk { mapBay .bayB (fun _ => Bay.reset) (leaking .ambient) with manifold := ⟨none, []⟩ } :=
  ⟨stepsOk_of (by decide +kernel), by decide, by decide, by decide, by decide, by decide, by decide, by decide, by decide,
    stepsOk_of (by decide +kernel)⟩

theorem witness_PressureSamplesDriveLeakTest_fill :
    StepsOk filling ∧ (filling.record .bayD).owner = .sequencer ∧ (filling.bay .bayD).leak.ops = some leakOps ∧ (filling.bay .bayD).leak.phaseStart = some 995000 ∧
    (filling.bay .bayD).leak.phase = .fill ∧ (filling.bay .bayD).leak.ambient = some 101000 ∧
    (4 * 32749 : Int) < 101000 + leakOps.pressure ∧ 101000 + leakOps.pressure ≤ (4 * 32750 : Int) ∧ 0 < leakOps.settleTime ∧
    filling.manifold.queue = [] :=
  ⟨stepsOk_of (by decide +kernel), by decide⟩

/-- Bay D in FILL with bay B waiting for the manifold. -/
def contended : State :=
  { mapBay .bayB (fun x => { x with
      record := { x.record with phase := .fillWait, lines := { x.record.lines with fill := false } }
      leak := { x.leak with phase := .fillWait, phaseStart := none } })
    (mapRecord .bayD (fun r => { r with lines := { r.lines with fill := true } }) (leaking .fill)) with
    manifold := ⟨some .bayD, [.bayB]⟩ }

theorem witness_PressureSamplesDriveLeakTest_queue :
    StepsOk contended ∧ (contended.bay .bayD).leak.phase = .fill ∧ (contended.bay .bayD).leak.ambient = some 101000 ∧
    contended.manifold.queue = [.bayB] := ⟨stepsOk_of (by decide +kernel), by decide⟩

/-- Bay D in FILL with a settle time of 0. -/
def unsettled : State := mapLeak .bayD (fun u => { u with ops := some { leakOps with settleTime := 0 } }) filling

theorem witness_PressureSamplesDriveLeakTest_noSettle :
    StepsOk unsettled ∧ (unsettled.bay .bayD).leak.ops = some { leakOps with settleTime := 0 } ∧
    (unsettled.bay .bayD).leak.phase = .fill ∧ (unsettled.record .bayD).stepStart = some 0 ∧
    ((unsettled.bay .bayD).sensor.takePressure unsettled.now 32750).pressureSince unsettled.now 0 = some 102875 ∧
    ((unsettled.bay .bayD).sensor.takePressure unsettled.now 32750).temperatureSince unsettled.now 0 = some 33115 ∧
    ((trial.bay .bayD).sensor.takePressure unsettled.now 32750).pressureSince unsettled.now 0 = none ∧
    (unsettled.record .bayD).owner = .sequencer ∧ (unsettled.bay .bayD).config.map.vent = .driven :=
  ⟨stepsOk_of (by decide +kernel), by decide⟩

theorem witness_PressureSamplesDriveLeakTest_vent :
    StepsOk (venting 5) ∧ ((venting 5).bay .bayD).leak.ops = some leakOps ∧ ((venting 5).bay .bayD).leak.phaseStart = some 990000 ∧
    ((venting 5).bay .bayD).leak.phase = .vent ∧ ((venting 5).bay .bayD).leak.ambient = some 101000 ∧
    (101000 + 500 : Int) < 4 * 25376 ∧ (4 * 25375 : Int) ≤ 101000 + 500 ∧ ((venting 5).record .bayD).owner = .sequencer :=
  ⟨stepsOk_of (by decide +kernel), by decide⟩

theorem witness_FillAndSettleEndAtTheirLimits :
    (StepsOk filling ∧ (filling.bay .bayD).leak.phase = .fill ∧ (filling.record .bayD).state = .running ∧
      (filling.record .bayD).stepStart = some 0 ∧ elapsed filling.now 992000 = leakOps.fillLimit ∧
      elapsed filling.now 995000 < leakOps.fillLimit) ∧
    StepsOk (leaking .settle) ∧ ((leaking .settle).bay .bayD).leak.phase = .settle ∧
    leakOps.settleTime ≤ elapsed (leaking .settle).now 995000 ∧ elapsed (leaking .settle).now 995001 < leakOps.settleTime ∧
    ((leaking .settle).bay .bayD).sensor.pressureSince 1000000 0 = some 101000 ∧
    ((leaking .settle).bay .bayD).sensor.temperatureSince 1000000 0 = some 33115 ∧
    (trial.bay .bayD).sensor.pressureSince 1000000 0 = none :=
  ⟨⟨stepsOk_of (by decide +kernel), by decide⟩, stepsOk_of (by decide +kernel), by decide⟩

theorem witness_MeasureEndGradesLeak :
    ((leaking .measure).bay .bayD).leak.ops = some leakOps ∧ ((leaking .measure).bay .bayD).leak.phase = .measure ∧
    ((leaking .measure).bay .bayD).leak.startMeans = some (101000, 33115) ∧ ((leaking .measure).record .bayD).state = .running ∧
    2 ≤ leakOps.measureTime ∧ leakOps.measureTime * 1000 ≤ elapsed 1000000 980000 ∧
    elapsed (leaking .measure).now 995000 < leakOps.measureTime * 1000 ∧
    ((leaking .measure).bay .bayD).sensor.pressureNow = some 101000 ∧
    ((leaking .measure).bay .bayD).sensor.temperatureNow = some 33115 ∧ (trial.bay .bayD).sensor.pressureNow = none ∧
    ((33165 - 33115 : Int).natAbs : Int) ≤ leakOps.deltaTMax ∧ leakOps.deltaTMax < ((33166 - 33115 : Int).natAbs : Int) ∧
    ((leaking .measure).bay .bayD).leak.retryCount < leakOps.retries ∧ 0 < leakOps.settleTime ∧
    leakOps.retries ≤ ((mapLeak .bayD (fun u => { u with retryCount := 1 }) (leaking .measure)).bay .bayD).leak.retryCount ∧
    ({ leakOps with settleTime := 0 } : LeakOps).settleTime ≤ 0 ∧ ((leaking .measure).record .bayD).stepStart = some 0 ∧
    ((leaking .measure).bay .bayD).sensor.pressureSince 1000000 0 = some 101000 ∧
    ((leaking .measure).bay .bayD).sensor.temperatureSince 1000000 0 = some 33115 ∧
    ((leaking .measure).bay .bayD).leak.posted = false ∧ ((leaking .measure).record .bayD).owner = .sequencer := by decide

theorem witness_InputChangesAreRecorded :
    (trial.record .bayD).inputs.get .grd = true ∧ (State.reset.record .bayD).inputs.get .pres ≠ true ∧
    (State.reset.record .bayD).state = .empty ∧ (manual.record .bayD).inputs.get .grd ≠ false ∧
    ((withRecord fun r => { r with state := .unloading }).record .bayD).state = .unloading ∧
    ((withRecord fun r => { r with state := .unloading }).record .bayD).inputs.get .pres ≠ false := by decide

/-- The Cell Port in a state given. -/
def atPort (st : PortState) (request : Option (Byte × Instr)) (preparing : Option Response) : State :=
  mapPort .cell (fun x => { x with state := st, request := request, preparing := preparing }) trial

theorem witness_TransferStartShiftsOut :
    ((atPort .executing none none).port .cell).state = .executing ∧ (trial.port .line).state = .quiet ∧
    (trial.port .line).response = none ∧ (trial.port .cell).state = .quiet ∧
    (trial.port .cell).response = some ⟨.badFrame, 0, true, [1]⟩ ∧
    ((atPort (.inTransfer .idle) none none).port .cell).state = .inTransfer .idle := by decide

theorem witness_RequestIsExaminedAndDispatched :
    ((atPort (.inTransfer .notReady) none none).port .cell).state = .inTransfer .notReady ∧
    ((atPort (.inTransfer (.response 7)) none none).port .cell).state = .inTransfer (.response 7) ∧
    TransferKind.response 7 ≠ .notReady ∧ crc (withCheck [0x37, 1, 0]) = 0#16 ∧ portsOf 0x37 = none ∧
    crc [0x20, 1, 0, 0, 0] ≠ 0#16 ∧ portsOf 0x10 = some [.line] ∧ PortId.cell ∉ [PortId.line] ∧
    (Instr.cellRun .cell).wellFormed = true ∧ portOf (.cellRun .cell) = some .cell ∧ .cell ∈ carriedOn (.cellRun .cell) ∧
    (trial.port .cell).state = .quiet := by decide +kernel

/-- CELL RUN spells a request with an empty payload, and no command one with a payload of one byte. -/
theorem witness_RequestIsExaminedAndDispatched_layout :
    (portsOf 0x20 = some [.cell] ∧ crc (withCheck [0x20, 1, 1, 0]) = 0#16 ∧
      (Instr.cellRun .cell).wellFormed = true ∧ portOf (.cellRun .cell) = some .cell ∧ codeOf (.cellRun .cell) = some 0x20 ∧
      requestPayload (.cellRun .cell) = []) ∧
    ∀ cmd : Instr, codeOf cmd = some 0x20 → requestPayload cmd ≠ [0] := by
  refine ⟨by decide +kernel, fun cmd hc hp => ?_⟩
  cases cmd <;> simp [codeOf] at hc
  simp [requestPayload] at hp

theorem witness_ResponseReadyAnswersRequest :
    ((trial.port .cell).request = none ∧ (trial.port .cell).preparing = none) ∧
    ((atPort .executing none (some ⟨.badFrame, 0, true, [3]⟩)).port .cell).preparing = some ⟨.badFrame, 0, true, [3]⟩ ∧
    ((atPort .executing (some (9, .cellRun .cell)) none).port .cell).request = some (9, .cellRun .cell) ∧
    portOf (.cellRun .cell) = some .cell ∧ ((atPort .executing (some (9, .cellRun .cell)) none).port .cell).state = .executing ∧
    ((atPort (.inTransfer .notReady) (some (9, .cellRun .cell)) none).port .cell).request = some (9, .cellRun .cell) ∧
    ((atPort (.inTransfer .notReady) (some (9, .cellRun .cell)) none).port .cell).state = .inTransfer .notReady := by
  decide

theorem witness_NoticeCommandsKeepTheSet :
    (trial.port .line).notices = [] ∧ Notice.fault .bayD ∈ (trial.port .cell).notices ∧ (trial.port .cell).NoticesOk ∧
    (∀ m ∈ (trial.port .cell).notices, (Notice.fault .bayD).key ≤ m.key) ∧
    (∀ m ∈ (trial.port .cell).notices, m.key = (Notice.fault .bayD).key → m = .fault .bayD) ∧
    (trial.port .cell).quietTimer = 0 ∧
    ((mapPort .cell (fun x => { x with quietTimer := 1 }) trial).port .cell).quietTimer ≠ 0 :=
  ⟨rfl, by decide, trial_notices .cell, by decide, by decide, by decide, by decide⟩

theorem witness_CellCommandsAct :
    State.reset.cell.state ≠ .running ∧ State.reset.cell.state = .stopped ∧ trial.cell.state = .running ∧
    trial.cell.state ≠ .stopped ∧ (trial.record .bayD).state.sequenced = true ∧
    ∀ b, (({ State.reset with cell := trial.cell } : State).record b).state.sequenced = false :=
  ⟨by decide, by decide, by decide, by decide, by decide, forall_bay (by decide) (by decide) (by decide) (by decide)⟩

/-- Bay D EMPTY with an axle present. -/
def arrived : State := withD fun _ => { Bay.reset with record := { BayRecord.reset with inputs := ⟨true, true, true, true⟩ } }

/-- Bay D LOADED with an axle of a known variant, or of an unknown one. -/
def loaded (code : Nat) : State := mapRecord .bayD (fun r => { r with state := .loaded, serial := some [0x34], variantCode := code }) arrived

theorem witness_ConfigureAndPresentAct :
    PortId.cell ∈ carriedOn (.hold .cell 4) ∧ PortId.line ∈ carriedOn (.readBay .line 255) ∧
    bayOfCode 0 = some .bayA ∧ bayOfCode 3 = some .bayD ∧ (arrived.record .bayD).state = .empty ∧ (arrived.record .bayD).owner = .line ∧
    (trial.record .bayD).state ≠ .empty ∧ (manual.record .bayD).owner = .cell ∧ 20 < (List.replicate 21 (0 : Byte)).length ∧
    (arrived.record .bayD).inputs.pres = true ∧ (State.reset.record .bayD).inputs.pres = false := by decide

theorem witness_HandoverStartsPlanOrDiverts :
    (manual.record .bayD).owner = .cell ∧ (arrived.record .bayD).owner ≠ .cell ∧ (arrived.record .bayD).state ≠ .loaded ∧
    ((loaded 7).record .bayD).owner ≠ .cell ∧ ((loaded 7).record .bayD).state = .loaded ∧ (loaded 7).cell.state = .running ∧
    ((loaded 7).record .bayD).inputs = ⟨true, true, true, true⟩ ∧
    (∃ v ∈ (loaded 7).store.variants, v.code = ((loaded 7).record .bayD).variantCode ∧ isPlanNumber v.plan = true) ∧
    (∀ v ∈ (loaded 65534).store.variants, v.code ≠ ((loaded 65534).record .bayD).variantCode) ∧
    State.reset.cell.state ≠ .running ∧ ((loaded 7).bay .bayD).leak.phase = .idle := by decide

theorem witness_HandoverStartsPlanOrDiverts_table : VariantsOk (loaded 7) := ⟨by decide, by decide, by decide⟩

theorem witness_BoundaryFollowsRequestsThenChain :
    ((withRecord fun r => { r with endRequest := true }).record .bayD).endRequest = true ∧
    ((withRecord fun r => { r with holdRequest := true }).record .bayD).holdRequest = true ∧
    (trial.record .bayD).endRequest = false ∧ (trial.record .bayD).holdRequest = false ∧
    trial.store.judgeChain 1 0 = .ok ([1, 0], 3) ∧ 1 ∈ [1, 0] :=
  ⟨by decide, by decide, by decide, by decide, rfl, by decide⟩

/-- The trial with a skip test in slot 1, the last step of plan 1. -/
def skipping (skip : SkipTest) (cell : Option Nat) (count : Int) : State :=
  { trial with store := (trial.store.setSlot 1
      (some ⟨1, { runStep .listen 255 [6, 8, 40, 120, 300, 450, 300, 450, 0, 1000] with skip := skip, auditCell := cell }⟩)).setCommon 56 count }

theorem witness_BoundaryFollowsRequestsThenChain_skip :
    (∀ skip, ((skipping skip (some 56) 1).store.judgeChain 1 0 matches .ok ([1, 0], 3)) = true ∧
      ((skipping skip (some 56) 1).store.slotAt 1).map (·.record.skip) = some skip) ∧
    (trial.record .bayC).pendingReductions ≠ 0 ∧ (trial.record .bayC).endRequest = false ∧ (trial.record .bayC).holdRequest = false ∧
    (trial.record .bayD).pendingReductions = 0 ∧ (trial.record .bayD).verdict = .pass ∧ (trial.record .bayD).results.getLast? = none ∧
    (skipping .audit (some 56) 1).store.commonAt 56 = 1 ∧ (skipping .audit (some 56) 2).store.commonAt 56 ≠ 1 := by
  refine ⟨fun skip => ?_, by decide, by decide, by decide, by decide, by decide, by decide, by decide +kernel, by decide +kernel⟩
  cases skip <;> exact ⟨by decide +kernel, by decide +kernel⟩

theorem witness_BoundaryFollowsRequestsThenChain_closing :
    (trial.record .bayD).owner = .sequencer ∧ (trial.bay .bayD).drive.x ≠ 0 ∧ ((venting 5).bay .bayD).drive.x = 0 ∧
    (((venting 5).bay .bayD).drive.latest.elim 0 (·.speed)).natAbs ≤ 5 ∧ ((venting 5).record .bayD).pendingReductions = 0 ∧
    (windDownOver.record .bayC).owner = .sequencer ∧ (windDownOver.bay .bayC).drive.x = 0 ∧
    (windDownOver.record .bayC).pendingReductions ≠ 0 := by decide

theorem witness_StepEntryResolvesOperands :
    trial.store.resolveStep 7 ⟨.ramp, .run, none, 255, Vector.replicate 10 (.variant 16)⟩ = none ∧
    trial.store.resolveStep 7 (runStep .dwell 255 [99, 450, 449, 0, 0]) = some [99, 450, 449, 0, 0] ∧
    (pairOutOfOrder (operandsOf .dwell (clampOperands (operandRanges 1500 .dwell) [99, 450, 449, 0, 0]))).isSome = true ∧
    pairOutOfOrder (operandsOf .dwell (clampOperands (operandRanges 1500 .dwell) [99, 450, 450, 0, 0])) = none := by decide +kernel

/-- A faulting reference at the entry of a step of a running bay. -/
theorem witness_StepEntryResolvesOperands_reference :
    ReducerOk trial ∧ StepsOk trial ∧ DrivesOk trial ∧ (trial.record .bayD).state = .running ∧
    trial.store.resolveStep (trial.record .bayD).variantCode ⟨.ramp, .run, none, 255, Vector.replicate 10 (.variant 16)⟩ = none :=
  ⟨trial_reducer, trial_steps, trial_drives, by decide, by decide +kernel⟩

/-- Indirect references by their value in a common cell, at both ends of each range. -/
theorem witness_StepEntryResolvesOperands_indirect :
    (∀ v ∈ [256, 271, 512, 575, 768, 831, 255, 272, 511, 576, 767, 832], (PlanStore.reset.setCommon 0 v).commonAt 0 = v) ∧
    (∃ v ∈ trial.store.variants, v.code = 7) ∧ ∀ v ∈ trial.store.variants, v.code ≠ 8 := by decide +kernel

theorem witness_StepEntryResolvesOperands_work :
    (∀ k, ((acquiring .hunting []).buf .bayD k).state = if k = .a0 then .acquiring else .free) ∧
    (∀ k, ((mapNoise .bayC id trial).buf .bayC k).state ≠ .free) ∧
    (((running 59).bay .bayD).drive.latest.elim 0 (·.speed)).natAbs < 60 ∧
    60 ≤ (((running (-60)).bay .bayD).drive.latest.elim 0 (·.speed)).natAbs ∧ (trial.bay .bayD).drive.target ≠ 0 ∧
    ((venting 5).bay .bayD).drive.target = 0 ∧ (((venting 5).bay .bayD).drive.latest.elim 0 (·.speed)).natAbs ≤ 5 ∧
    ((venting 5).bay .bayD).config.map.sealHeads = .driven ∧ ((venting 5).bay .bayD).config.map.vent = .driven ∧
    ((venting 5).record .bayD).owner = .sequencer ∧ ((venting 5).bay .bayD).sensor.pressureSince 1000000 1000000 = none ∧
    ({ SensorLink.reset with pressure := window 25250 1000000 } : SensorLink).pressureSince 1000000 1000000 = some 101000 ∧
    State.reset.manifold.granted = none ∧ State.reset.manifold.queue = [] :=
  ⟨forall_buf (by decide) (by decide), forall_buf (by decide) (by decide), by decide⟩

theorem witness_HoldAndResumeAct :
    ((trial.record .bayC).state = .running ∧ (trial.record .bayC).phase = .entryWait ∧ bayOfCode 2 = some .bayC) ∧
    (trial.record .bayD).phase ≠ .entryWait ∧ (held.record .bayD).state = .held ∧ ((ending .closing).record .bayD).state = .closing ∧
    (trial.record .bayA).state ≠ .running ∧ (held.record .bayD).holdPoint = some .after ∧ (held.record .bayD).slot = some 0 ∧
    held.store.slotAt 0 = some ⟨1, runStep .dwell 1 [30000, 450, 600, 2500, 3500]⟩ ∧
    ((mapRecord .bayD (fun r => { r with holdPoint := some .before }) held).record .bayD).holdPoint = some .before := by decide +kernel

theorem witness_WithdrawAndReleaseAct :
    (manual.record .bayD).owner = .cell ∧ (trial.record .bayA).owner ≠ .cell ∧ (trial.record .bayA).state = .finished ∧
    (trial.record .bayA).reportStatus = .committed ∧ (trial.record .bayA).inputs.pres = false ∧
    ((loaded 7).record .bayD).state = .loaded ∧
    ((mapRecord .bayA (fun r => { r with reportStatus := .waiting }) trial).record .bayA).reportStatus ≠ .committed ∧
    ((mapRecord .bayA (fun r => { r with inputs := { r.inputs with pres := true } }) trial).record .bayA).inputs.pres = true := by decide

theorem witness_LineCommandsWriteNamedLines :
    (0x08#8).getLsbD 3 = true ∧ (0x17#8).getLsbD 3 = false ∧ (trial.record .bayA).owner = .line ∧ (trial.record .bayD).owner ≠ .line ∧
    (manual.record .bayD).owner = .cell ∧ bayOfCode 3 = some .bayD := by decide

/-- Bay D in manual operation at rest. -/
def resting (speed : Int) : State := mapDrive .bayD (fun d => { d with jogTarget := 0, target := 0, latest := some ⟨.ready, speed, 0⟩ }) manual

theorem witness_ManualCommandsAct :
    (arrived.record .bayD).state = .empty ∧ (arrived.record .bayD).owner = .line ∧ (manual.record .bayD).owner = .cell ∧
    (trial.record .bayD).state ≠ .empty ∧ (trial.record .bayD).state ≠ .loaded ∧ (manual.bay .bayD).drive.jogTarget ≠ 0 ∧
    5 < (((resting 6).bay .bayD).drive.latest.elim 0 (·.speed)).natAbs ∧
    (((resting (-5)).bay .bayD).drive.latest.elim 0 (·.speed)).natAbs ≤ 5 ∧ ((resting 5).bay .bayD).drive.jogTarget = 0 ∧
    (manual.record .bayD).inputs.grd = true ∧ (State.reset.record .bayD).inputs.grd = false ∧
    ((mapDrive .bayD (fun d => { d with latest := some ⟨.fault, 0, 0⟩ }) manual).bay .bayD).drive.latest = some ⟨.fault, 0, 0⟩ ∧
    (manual.bay .bayD).drive.latest = none := by decide

theorem witness_ManualCommandsAct_config : (manual.bay .bayD).config.Ok := ⟨by decide, by decide, by decide⟩

theorem witness_OpenAndWriteStepAct :
    isPlanNumber 0 = false ∧ isPlanNumber 17 = false ∧ (trial.store.entry 1).state ≠ .empty ∧ (trial.store.entry 16).state = .empty ∧
    (trial.store.entry 5).state = .loading ∧ (trial.store.entry 1).state ≠ .loading ∧ trial.store.slotAt 254 = none ∧
    (∃ o, trial.store.slotAt 0 = some o ∧ o.plan ≠ 5) ∧
    ∃ c, (⟨.ramp, .audit, some 63, 255, refs [-8388608, 8388607]⟩ : StepRecord).auditCell = some c ∧ 56 ≤ c ∧ c ≤ 63 :=
  ⟨by decide, by decide, by decide, by decide, by decide, by decide, by decide +kernel, ⟨_, rfl, by decide⟩, _, rfl, by decide⟩

theorem witness_DiscardPlanFreesItsSlots :
    isPlanNumber 17 = false ∧ (trial.store.entry 1).state ≠ .loading ∧ isPlanNumber 5 = true ∧ (trial.store.entry 5).state = .loading := by
  decide

theorem witness_PublishAndRetireAct :
    ((trial.store.entry 5).state = .loading ∧ (trial.store.entry 5).version = 65535) ∧
    (trial.store.judgeChain 5 20 matches .ok ([20], 0)) = true ∧ (trial.store.judgeChain 5 0 matches .error (.foreignSlot 0)) = true ∧
    ((trial.store.setSlot 20 (some ⟨5, runStep .ramp 20 []⟩)).judgeChain 5 20 matches .error (.cycle 20)) = true ∧
    (trial.store.entry 1).state = .ready ∧ (∃ v ∈ trial.store.variants, v.plan = 1) ∧ (trial.store.entry 1).refCount ≠ 0 ∧
    (∀ v ∈ ({ trial.store with variants := [] } : PlanStore).variants, v.plan ≠ 1) ∧ (trial.store.entry 16).state ≠ .ready := by
  decide +kernel

/-- Plan 5 LOADING with a chain of `n` steps of one kind from slot 0. -/
def chain (kind : StepKind) (n : Nat) : PlanStore :=
  { PlanStore.reset with
    slots := Vector.ofFn fun i => if i.val < n then some ⟨5, runStep kind (if i.val + 1 = n then 255 else i.val + 1) []⟩ else none }

/-- `PlanStore.runs`, decided. -/
def runsCheck (st : PlanStore) (n : Nat) : List Nat → Nat → Nat → Bool
  | [], k, last => k == last
  | x :: path, k, last => x == k && match st.slotAt k with
    | some o => o.plan == n && runsCheck st n path o.record.next last
    | none => false

theorem runs_of {st : PlanStore} {n : Nat} {path : List Nat} {k last : Nat} (h : runsCheck st n path k last = true) :
    st.runs n path k last := by
  induction path generalizing k with
  | nil => simpa [runsCheck, PlanStore.runs] using h
  | cons x path ih =>
    simp only [runsCheck, Bool.and_eq_true, beq_iff_eq] at h
    obtain ⟨rfl, h⟩ := h
    split at h
    · next o e =>
      simp only [Bool.and_eq_true, beq_iff_eq] at h
      obtain ⟨rfl, h⟩ := h
      exact ⟨rfl, o.record, e, ih h⟩
    · simp at h

/-- Each outcome of the walk has its path: a foreign slot, a cycle, no slot, and chains at each limit and one beyond. -/
theorem witness_PublishAndRetireAct_walk :
    (trial.store.runs 5 [] 0 0 ∧ ∀ o, trial.store.slotAt 0 = some o → o.plan ≠ 5) ∧
    ((trial.store.setSlot 20 (some ⟨5, runStep .ramp 20 []⟩)).runs 5 [20] 20 20 ∧ 20 ∈ [20]) ∧ trial.store.runs 5 [] 255 255 ∧
    (chain .ramp 65).runs 5 (List.range 65) 0 255 ∧ (chain .ramp 64).runs 5 (List.range 64) 0 255 ∧
    (chain .dwell 17).runs 5 (List.range 17) 0 255 ∧ (chain .dwell 16).runs 5 (List.range 16) 0 255 ∧ (List.range 65).Nodup :=
  ⟨⟨rfl, of_all (p := fun o : OwnedStep => o.plan ≠ 5) (by decide +kernel)⟩, ⟨runs_of (by decide +kernel), by decide⟩, rfl,
    runs_of (by decide +kernel), runs_of (by decide +kernel), runs_of (by decide +kernel), runs_of (by decide +kernel),
    List.nodup_range⟩

theorem witness_PublishAndRetireAct_limits :
    ((chain .ramp 65).judgeChain 5 0 matches .error .chainTooLong) = true ∧ ((chain .ramp 64).judgeChain 5 0 matches .ok _) = true ∧
    ((chain .dwell 17).judgeChain 5 0 matches .error .tooManyResults) = true ∧
    ((chain .dwell 16).judgeChain 5 0 matches .ok _) = true := by decide +kernel

theorem witness_VariantAndCellWritesAct :
    VariantsOk trial ∧ (trial.store.entry 1).state = .ready ∧ (trial.store.entry 5).state ≠ .ready ∧
    (∃ v ∈ trial.store.variants, v.code = 7) ∧ (∀ v ∈ trial.store.variants, v.code ≠ 65534) ∧ trial.store.variants.length < 32 ∧
    32 ≤ (List.replicate 32 (⟨7, 1, Vector.replicate 16 0⟩ : VariantEntry)).length :=
  ⟨trial_variants, by decide, by decide, by decide +kernel, by decide +kernel, by decide +kernel, by simp⟩

theorem witness_StoreReadsAnswer :
    trial.store.slotAt 254 = none ∧ (trial.store.slotAt 0).isSome = true ∧ (∃ v ∈ trial.store.variants, v.code = 7) ∧
    (∀ v ∈ trial.store.variants, v.code ≠ 1) := by decide +kernel

theorem witness_StatusReadsAnswer :
    bayOfCode 0 = some .bayA ∧ bayOfCode 4 = none ∧ State.reset.reports.queue = [] ∧ trial.reports.queue.length = 1 ∧
    (∀ r ∈ trial.reports.queue, (reportBytes r).length = 25 ∧ 24 < (reportBytes r).length) := by decide

/-- Sixteen reports in the queue, with the report of bay A waiting. -/
def backlogged : State :=
  { trial with reports := ⟨(List.range 16).map fun i => ⟨some (i + 1), .bayA, [0x33], 7, 1, 3, .pass, none, none, false, false, some 0, 0, []⟩,
      4294967295, [⟨.bayA, ⟨none, .bayA, [0x33], 7, 1, 3, .pass, none, none, false, false, some 0, 0, []⟩⟩], true⟩ }

theorem witness_TakeReportCommitsNextWaiting :
    State.reset.reports.queue = [] ∧ (trial.reports.queue.map (·.sequence)) = [some 1] ∧ trial.reports.waiting = [] ∧
    (backlogged.reports.queue.head?.bind (·.sequence)) = some 1 ∧ backlogged.reports.waiting.length = 1 ∧
    (let s := { backlogged with cell := { backlogged.cell with backlogThreshold := 16 }, reports := { backlogged.reports with backlog := false } };
      s.reports.backlog = false ∧ s.cell.backlogThreshold ≤ (s.reports.queue.drop 1).length + 1) := by decide

end Sys2Proof.Tests
end

section
/-! PROOF. What freeing a plan's slots and writing its entry do to the Plan Store, and DISCARD PLAN (R33, R37). -/

namespace Sys2Proof.Machine

/-! ## A plan's slots freed -/

@[simp] theorem PlanStore.slotAt_freeSlots (st : PlanStore) (n : Nat) (keep : List Nat) (k : Nat) :
    (st.freeSlots n keep).slotAt k = (st.slotAt k).filter fun o => o.plan != n || decide (k ∈ keep) := by
  by_cases hk : k < Config.slotCount
  · cases hs : st.slots[k] with
    | none => simp [slotAt, freeSlots, hk, hs]
    | some o => by_cases ho : o.plan = n <;> simp [slotAt, freeSlots, hk, hs, Option.filter, ho]
  · simp [slotAt, hk]

theorem PlanStore.freeSlots_nil_slots (st : PlanStore) (n : Nat) :
    (st.freeSlots n []).slots = st.slots.map (Option.filter (·.plan != n)) := by
  ext1 k hk
  cases hs : st.slots[k] <;> simp [freeSlots, hs, Option.filter]

/-- Freeing adds the slots owned to the slots FREE before: a slot is in at most one of the two counts. -/
theorem countP_isNone_filter_plan (l : List (Option OwnedStep)) (n : Nat) :
    (l.map (Option.filter (·.plan != n))).countP (·.isNone) =
      l.countP (·.isNone) + l.countP fun o => o.elim false (·.plan == n) := by
  induction l with
  | nil => rfl
  | cons o l ih =>
    cases o with
    | none => simp [ih]; omega
    | some o =>
      by_cases h : o.plan = n
      · simp [ih, h]; omega
      · simp [ih, h]

theorem PlanStore.freeCount_freeSlots_nil (st : PlanStore) (n : Nat) :
    (st.freeSlots n []).freeCount = st.freeCount + st.ownedCount n := by
  simp only [freeCount, freeSlots_nil_slots, Vector.toList_map, countP_isNone_filter_plan, ownedCount]

/-! ## A directory entry written -/

@[simp] theorem PlanStore.setEntry_slots (st : PlanStore) (n : Nat) (e : PlanEntry) : (st.setEntry n e).slots = st.slots := by
  unfold setEntry; split <;> rfl

@[simp] theorem PlanStore.slotAt_setEntry (st : PlanStore) (n k : Nat) (e : PlanEntry) : (st.setEntry n e).slotAt k = st.slotAt k := by
  simp only [slotAt, setEntry_slots]

@[simp] theorem PlanStore.freeCount_setEntry (st : PlanStore) (n : Nat) (e : PlanEntry) : (st.setEntry n e).freeCount = st.freeCount := by
  simp only [freeCount, setEntry_slots]

@[simp] theorem PlanStore.entry_freeSlots (st : PlanStore) (n : Nat) (keep : List Nat) (m : Nat) :
    (st.freeSlots n keep).entry m = st.entry m := by
  simp only [entry, freeSlots]

theorem isPlanNumber_iff {n : Nat} : isPlanNumber n = true ↔ 1 ≤ n ∧ n ≤ 16 := by
  simp [isPlanNumber]

theorem PlanStore.entry_setEntry_same (st : PlanStore) {n : Nat} (e : PlanEntry) (hn : isPlanNumber n = true) :
    (st.setEntry n e).entry n = e := by
  have hlt : n - 1 < Config.planCount := by
    have := isPlanNumber_iff.mp hn
    simp only [Config.planCount]; omega
  simp [entry, setEntry, hn, hlt]

theorem PlanStore.entry_setEntry_other (st : PlanStore) {n m : Nat} (e : PlanEntry) (h : m ≠ n) :
    (st.setEntry n e).entry m = st.entry m := by
  by_cases hn : isPlanNumber n = true
  · by_cases hm : isPlanNumber m = true
    · have hne : n - 1 ≠ m - 1 := by
        have := isPlanNumber_iff.mp hn
        have := isPlanNumber_iff.mp hm
        omega
      simp [entry, setEntry, hn, hm, hne]
    · simp [entry, hm]
  · simp [setEntry, hn]

/-! ## A plan emptied (R33, R37 to R39) -/

theorem PlanStore.slotAt_emptyPlan (st : PlanStore) (n k : Nat) :
    (st.emptyPlan n).slotAt k = (st.slotAt k).filter (·.plan != n) := by
  simp [emptyPlan]

theorem PlanStore.freeCount_emptyPlan (st : PlanStore) (n : Nat) :
    (st.emptyPlan n).freeCount = st.freeCount + st.ownedCount n := by
  simp [emptyPlan, freeCount_freeSlots_nil]

theorem PlanStore.entry_emptyPlan_same (st : PlanStore) {n : Nat} (hn : isPlanNumber n = true) :
    (st.emptyPlan n).entry n = (st.entry n).emptied :=
  entry_setEntry_same _ _ hn

theorem PlanStore.entry_emptyPlan_other (st : PlanStore) {n m : Nat} (h : m ≠ n) : (st.emptyPlan n).entry m = st.entry m := by
  rw [emptyPlan, entry_setEntry_other _ _ h, entry_freeSlots]

/-! ## The reply of a plan command -/

theorem serve_carried {p : PortId} {cmd : Instr} (body : State → Reply) (s : State) (h : p ∈ carriedOn cmd) :
    serve p cmd body s = answered p cmd (body s).status (body s).payload (body s).state := by
  simp only [serve, if_pos h, answered]

theorem onPlan_valid {n : Nat} (f : State → Reply) (s : State) (h : isPlanNumber n = true) : onPlan n f s = f s := if_pos h

theorem onPlan_invalid {n : Nat} (f : State → Reply) (s : State) (h : isPlanNumber n = false) :
    onPlan n f s = refuse .badArgument s := by
  simp [onPlan, h]

/-! ## DISCARD PLAN (R37) -/

theorem runDiscardPlan_loading {n : Nat} {s : State} (h : (s.store.entry n).state = .loading) :
    runDiscardPlan n s = accept (bytesOf 1 (s.store.ownedCount n)) (withStore (s.store.emptyPlan n) s) := if_pos h

theorem runDiscardPlan_not_loading {n : Nat} {s : State} (h : (s.store.entry n).state ≠ .loading) :
    runDiscardPlan n s = refuse .wrongState s := if_neg h

/-- The Cell Port carries DISCARD PLAN, so its answer is that of its body. -/
theorem exec_discardPlan {n : Nat} {s : State} {r : Reply} (h : onPlan n (runDiscardPlan n) s = r) :
    exec (.discardPlan .cell n) s = .next (answered .cell (.discardPlan .cell n) r.status r.payload r.state) := by
  subst h
  exact congrArg Host.Outcome.next (serve_carried _ s (List.mem_singleton.mpr rfl))

/-- Settles O55: the new store is the old one with plan `n` emptied. -/
theorem discardPlanFreesItsSlots : Obligations.DiscardPlanFreesItsSlots := by
  intro n s
  refine ⟨fun hn => ?badNumber, fun hn hst => ?notLoading, fun hn hst => ⟨s.store.emptyPlan n, ?answer, ?owned, ?foreign, ?free, ?count,
    ?entry, fun m hm => ?otherEntry, ?variants, ?common⟩⟩
  case badNumber => exact exec_discardPlan (onPlan_invalid _ s hn)
  case notLoading => exact exec_discardPlan ((onPlan_valid _ s hn).trans (runDiscardPlan_not_loading hst))
  case answer => exact exec_discardPlan ((onPlan_valid _ s hn).trans (runDiscardPlan_loading hst))
  case owned => intro k o hk ho; simp [PlanStore.slotAt_emptyPlan, hk, ho]
  case foreign => intro k o hk ho; simp [PlanStore.slotAt_emptyPlan, hk, ho]
  case free => intro k hk; simp [PlanStore.slotAt_emptyPlan, hk]
  case count => exact s.store.freeCount_emptyPlan n
  case entry => exact s.store.entry_emptyPlan_same hn
  case otherEntry => exact s.store.entry_emptyPlan_other hm
  case variants => exact s.store.emptyPlan_variants n
  case common => exact s.store.emptyPlan_common n

end Sys2Proof.Machine
end

section
/-! PROOF. What the Sensor Link answers from a window (R101 to R103), and a VIBRATION word justified and staged (R98, R99). -/

namespace Sys2Proof.Machine

/-! ## A window's sum and its availability (R101 to R103) -/

theorem windowFull_iff (w : List Sample) : windowFull w = true ↔ w.length = 16 := beq_iff_eq

/-- The sum of a full window lies within 16 times the range of its words. -/
theorem sum_words_bounds {w : List Sample} {lo hi : Int} (hLen : w.length = 16) (hRange : ∀ x ∈ w, lo ≤ x.word ∧ x.word ≤ hi) :
    16 * lo ≤ (w.map (·.word)).sum ∧ (w.map (·.word)).sum ≤ 16 * hi := by
  have hLow : ∀ v ∈ w.map (·.word), lo ≤ v := List.forall_mem_map.mpr fun x hx => (hRange x hx).1
  have hHigh : ∀ v ∈ w.map (·.word), v ≤ hi := List.forall_mem_map.mpr fun x hx => (hRange x hx).2
  exact ⟨by simpa [hLen] using List.card_nsmul_le_sum _ lo hLow, by simpa [hLen] using List.sum_le_card_nsmul _ hi hHigh⟩

/-- The test of R103 on a full window: the head sample was taken no longer ago than the time asked from. -/
theorem windowSince_cons_iff {w rest : List Sample} {x : Sample} (now t : Time) (hw : w = x :: rest) (hLen : w.length = 16) :
    windowSince now t w = true ↔ (now - x.time).toNat ≤ (now - t).toNat := by
  have hFull := (windowFull_iff w).mpr hLen
  subst hw
  simp only [windowSince, hFull, Bool.true_and, elapsed]
  exact decide_eq_true_iff

theorem windowSince_short {w : List Sample} (now t : Time) (h : w.length ≠ 16) : windowSince now t w = false := by
  have hShort : windowFull w = false := Bool.eq_false_iff.mpr (mt (windowFull_iff w).mp h)
  simp [windowSince, hShort]

theorem SensorLink.pressureNow_full {l : SensorLink} (h : l.pressure.length = 16) : l.pressureNow = some (pressureMean l.pressure) :=
  if_pos ((windowFull_iff _).mpr h)

theorem SensorLink.pressureNow_short {l : SensorLink} (h : l.pressure.length ≠ 16) : l.pressureNow = none :=
  if_neg (mt (windowFull_iff _).mp h)

theorem SensorLink.temperatureNow_full {l : SensorLink} (h : l.temperature.length = 16) :
    l.temperatureNow = some (temperatureMean l.temperature) := if_pos ((windowFull_iff _).mpr h)

theorem SensorLink.temperatureNow_short {l : SensorLink} (h : l.temperature.length ≠ 16) : l.temperatureNow = none :=
  if_neg (mt (windowFull_iff _).mp h)

theorem SensorLink.pressureSince_short {l : SensorLink} (now t : Time) (h : l.pressure.length ≠ 16) : l.pressureSince now t = none :=
  if_neg (Bool.eq_false_iff.mp (windowSince_short now t h))

theorem SensorLink.temperatureSince_short {l : SensorLink} (now t : Time) (h : l.temperature.length ≠ 16) :
    l.temperatureSince now t = none := if_neg (Bool.eq_false_iff.mp (windowSince_short now t h))

theorem SensorLink.pressureSince_full {l : SensorLink} {x : Sample} {rest : List Sample} (now t : Time)
    (hw : l.pressure = x :: rest) (h : l.pressure.length = 16) :
    l.pressureSince now t = if (now - x.time).toNat ≤ (now - t).toNat then l.pressureNow else none := by
  simp only [pressureSince, windowSince_cons_iff now t hw h, pressureNow_full h]

theorem SensorLink.temperatureSince_full {l : SensorLink} {x : Sample} {rest : List Sample} (now t : Time)
    (hw : l.temperature = x :: rest) (h : l.temperature.length = 16) :
    l.temperatureSince now t = if (now - x.time).toNat ≤ (now - t).toNat then l.temperatureNow else none := by
  simp only [temperatureSince, windowSince_cons_iff now t hw h, temperatureNow_full h]

/-- Settles O18: each mean is a floor of the window's sum, which lies within 16 times the range of the words. -/
theorem temperatureMeanRoundsHalfUp : Obligations.TemperatureMeanRoundsHalfUp := by
  refine ⟨fun l => ⟨SensorLink.temperatureNow_short, fun hLen hRange => ?temperature⟩,
    fun l => ⟨SensorLink.pressureNow_short, fun hLen hRange => ?pressure⟩,
    fun l now t => ⟨SensorLink.pressureSince_short now t, SensorLink.temperatureSince_short now t,
      fun _ _ => SensorLink.pressureSince_full now t, fun _ _ => SensorLink.temperatureSince_full now t⟩⟩
  case temperature =>
    obtain ⟨hLow, hHigh⟩ := sum_words_bounds hLen hRange
    exact ⟨by omega, by omega, ((l.temperature.map (·.word)).sum + 8) / 16, SensorLink.temperatureNow_full hLen, by omega⟩
  case pressure =>
    obtain ⟨hLow, hHigh⟩ := sum_words_bounds hLen hRange
    exact ⟨by omega, by omega, ((l.pressure.map (·.word)).sum + 2) / 4, SensorLink.pressureNow_full hLen, by omega⟩

/-! ## Justification (R98) -/

/-- The low `w` bits as a two's-complement number differ from the value field by a multiple of 2^w. -/
theorem toInt_setWidth_sub_emod (w : Nat) (value : BitVec 16) : ((value.setWidth w).toInt - value.toNat) % 2 ^ w = 0 := by
  rw [BitVec.toInt_setWidth, ← Int.emod_eq_emod_iff_emod_sub_eq_zero]
  exact_mod_cast Int.bmod_emod

/-- A width-`w` full scale justified is the 16-bit full scale. -/
theorem fullScale_justified {w : Nat} (h1 : 1 ≤ w) (h16 : w ≤ 16) : (2 : Int) ^ (w - 1) * 2 ^ (16 - w) = 32768 := by
  rw [← pow_add, show w - 1 + (16 - w) = 15 by omega]; rfl

theorem justify_bounds {w : Nat} (value : BitVec 16) (h1 : 1 ≤ w) (h16 : w ≤ 16) :
    -32768 ≤ justify w value ∧ justify w value ≤ 32767 := by
  have hFactor : (0 : Int) < 2 ^ (16 - w) := by positivity
  have hScale := fullScale_justified h1 h16
  constructor
  · calc (-32768 : Int) = -2 ^ (w - 1) * 2 ^ (16 - w) := by rw [neg_mul, hScale]
      _ ≤ justify w value := Int.mul_le_mul_of_nonneg_right (BitVec.le_toInt _) hFactor.le
  · refine Int.le_of_lt_add_one ?_
    calc justify w value < 2 ^ (w - 1) * 2 ^ (16 - w) := Int.mul_lt_mul_of_pos_right BitVec.toInt_lt hFactor
      _ = 32767 + 1 := hScale

/-! ## What a bay does keeps the readings of every Sensor Link (R94)

A walk, an abort or a finish can stop a loss watch and changes nothing else at a link. -/

/-- The Sensor Link of a bay with its loss watch left out. -/
def Bays.readings (bs : Bays) (b : BayId) : SensorLink := { (bs.get b).sensor with lossWatch := none }

theorem vibration_of_readings {s t : State} (h : t.bays.readings = s.bays.readings) (b : BayId) :
    (t.bay b).sensor.vibration = (s.bay b).sensor.vibration :=
  congrArg (fun r => (r b).vibration) h

theorem mapBay_readings (b : BayId) (f : Bay → Bay) (s : State)
    (h : ∀ x, { (f x).sensor with lossWatch := none } = { x.sensor with lossWatch := none }) :
    (mapBay b f s).bays.readings = s.bays.readings := by
  funext c
  show { ((mapBay b f s).bay c).sensor with lossWatch := none } = { (s.bay c).sensor with lossWatch := none }
  rw [mapBay_bay]
  split
  · exact h _
  · rfl

@[simp] theorem mapRecord_readings (b : BayId) (f : BayRecord → BayRecord) (s : State) :
    (mapRecord b f s).bays.readings = s.bays.readings := mapBay_readings b _ s fun _ => rfl

@[simp] theorem mapDrive_readings (b : BayId) (f : DriveLink → DriveLink) (s : State) :
    (mapDrive b f s).bays.readings = s.bays.readings := mapBay_readings b _ s fun _ => rfl

@[simp] theorem mapNoise_readings (b : BayId) (f : NoiseUnit → NoiseUnit) (s : State) :
    (mapNoise b f s).bays.readings = s.bays.readings := mapBay_readings b _ s fun _ => rfl

@[simp] theorem mapLeak_readings (b : BayId) (f : LeakUnit → LeakUnit) (s : State) :
    (mapLeak b f s).bays.readings = s.bays.readings := mapBay_readings b _ s fun _ => rfl

/-- The loss watch is the part of a link that entry into FINISHED stops (R105). -/
@[simp] theorem stopLossWatch_readings (b : BayId) (s : State) :
    (mapSensor b (fun l => { l with lossWatch := none }) s).bays.readings = s.bays.readings := mapBay_readings b _ s fun _ => rfl

@[simp] theorem mapBuf_readings (b : BayId) (k : BufId) (f : ListenBuffer → ListenBuffer) (s : State) :
    (mapBuf b k f s).bays.readings = s.bays.readings := mapNoise_readings ..

@[simp] theorem setBayState_readings (b : BayId) (st : BayState) (s : State) :
    (setBayState b st s).bays.readings = s.bays.readings := by
  simp [setBayState]

@[simp] theorem setOwner_readings (b : BayId) (o : Owner) (s : State) : (setOwner b o s).bays.readings = s.bays.readings := by
  simp [setOwner]

@[simp] theorem setPhase_readings (b : BayId) (ph : StepPhase) (s : State) : (setPhase b ph s).bays.readings = s.bays.readings :=
  mapRecord_readings ..

@[simp] theorem setFill_readings (b : BayId) (v : Bool) (s : State) : (setFill b v s).bays.readings = s.bays.readings :=
  mapRecord_readings ..

@[simp] theorem postResult_readings (b : BayId) (res : Result) (s : State) : (postResult b res s).bays.readings = s.bays.readings := by
  unfold postResult
  split
  · exact mapRecord_readings ..
  · rfl

@[simp] theorem refreshLines_readings (b : BayId) (s : State) : (refreshLines b s).bays.readings = s.bays.readings := by
  simp only [refreshLines]
  split
  · exact mapRecord_readings ..
  · rfl

@[simp] theorem releaseReference_bays (plan : Option Nat) (s : State) : (releaseReference plan s).bays = s.bays := by
  unfold releaseReference
  split
  · rfl
  · dsimp only
    split <;> rfl

@[simp] theorem cellStopCheck_bays (s : State) : (cellStopCheck s).bays = s.bays := by
  unfold cellStopCheck
  split <;> rfl

/-! ### The Noise Check and the manifold -/

@[simp] theorem engineTake_readings (s : State) : (engineTake s).bays.readings = s.bays.readings := by
  unfold engineTake
  split
  · exact mapBuf_readings ..
  · rfl

@[simp] theorem enqueueBuffer_readings (b : BayId) (k : BufId) (s : State) :
    (enqueueBuffer b k s).bays.readings = s.bays.readings := by
  simp [enqueueBuffer, joinReducer]

@[simp] theorem cancelBuffer_readings (b : BayId) (k : BufId) (s : State) : (cancelBuffer b k s).bays.readings = s.bays.readings := by
  unfold cancelBuffer
  split <;> simp

@[simp] theorem cancelReductions_readings (b : BayId) (s : State) : (cancelReductions b s).bays.readings = s.bays.readings := by
  simp [cancelReductions]

@[simp] theorem stopAcquisition_readings (b : BayId) (s : State) : (stopAcquisition b s).bays.readings = s.bays.readings :=
  mapNoise_readings ..

@[simp] theorem enterLeakPhase_readings (b : BayId) (ph : LeakPhase) (start : Option Time) (s : State) :
    (enterLeakPhase b ph start s).bays.readings = s.bays.readings := by
  simp [enterLeakPhase]

@[simp] theorem grantHead_readings (s : State) : (grantHead s).bays.readings = s.bays.readings := by
  unfold grantHead
  split
  · simp [enterFill]
  · rfl

@[simp] theorem requestManifold_readings (b : BayId) (s : State) : (requestManifold b s).bays.readings = s.bays.readings :=
  grantHead_readings _

@[simp] theorem releaseManifold_readings (b : BayId) (s : State) : (releaseManifold b s).bays.readings = s.bays.readings := by
  unfold releaseManifold
  split
  · simp
  · rfl

@[simp] theorem endLeak_readings (b : BayId) (s : State) : (endLeak b s).bays.readings = s.bays.readings := by
  simp [endLeak, withdrawManifold]

@[simp] theorem askAmbient_readings (b : BayId) (s : State) : (askAmbient b s).bays.readings = s.bays.readings := by
  simp only [askAmbient]
  split
  · simp [enterFillWait]
  · rfl

@[simp] theorem enterAmbient_readings (b : BayId) (o : LeakOps) (s : State) : (enterAmbient b o s).bays.readings = s.bays.readings := by
  simp [enterAmbient]

/-! ### Leaving a plan -/

@[simp] theorem handReport_readings (b : BayId) (rep : Report) (s : State) : (handReport b rep s).bays.readings = s.bays.readings := by
  funext c
  exact congrArg (fun l : SensorLink => { l with lossWatch := none }) (handReport_sensor b c rep s)

@[simp] theorem finishBay_readings (b : BayId) (v : FinalVerdict) (s : State) : (finishBay b v s).bays.readings = s.bays.readings := by
  simp [finishBay]

@[simp] theorem settleEnding_readings (b : BayId) (s : State) : (settleEnding b s).bays.readings = s.bays.readings := by
  unfold settleEnding
  split
  · split
    · exact finishBay_readings ..
    · split
      · exact finishBay_readings ..
      · rfl
    · rfl
  · rfl

@[simp] theorem examineEnding_readings (b : BayId) (s : State) : (examineEnding b s).bays.readings = s.bays.readings := by
  simp [examineEnding]

@[simp] theorem startWindDown_readings (b : BayId) (s : State) : (startWindDown b s).bays.readings = s.bays.readings :=
  mapDrive_readings ..

@[simp] theorem enterClosing_readings (b : BayId) (s : State) : (enterClosing b s).bays.readings = s.bays.readings := by
  simp [enterClosing]

@[simp] theorem enterHeld_readings (b : BayId) (p : HoldPoint) (s : State) : (enterHeld b p s).bays.readings = s.bays.readings := by
  simp [enterHeld]

@[simp] theorem enterAborting_readings (b : BayId) (c : Cause) (s : State) : (enterAborting b c s).bays.readings = s.bays.readings := by
  simp only [enterAborting, examineEnding_readings, refreshLines_readings]
  split <;> simp

@[simp] theorem takeFault_readings (b : BayId) (f : Cause) (s : State) : (takeFault b f s).bays.readings = s.bays.readings := by
  unfold takeFault
  split <;> simp [recordSecondary]

/-! ### Walking a plan -/

@[simp] theorem skipTest_readings (b : BayId) (rec : StepRecord) (s : State) : (skipTest b rec s).2.bays.readings = s.bays.readings := by
  unfold skipTest
  split
  · simp
  · rfl

theorem startRamp_readings (b : BayId) (o : RampOps) (s : State) : (startRamp b o s).2.bays.readings = s.bays.readings := by
  simp only [startRamp]
  split
  · simp
  · split <;> simp

theorem startDwell_readings (b : BayId) (o : DwellOps) (s : State) : (startDwell b o s).2.bays.readings = s.bays.readings := by
  simp only [startDwell, setPhase_readings, mapRecord_readings]
  split
  · exact mapDrive_readings ..
  · rfl

theorem startListen_readings (b : BayId) (o : ListenOps) (s : State) : (startListen b o s).2.bays.readings = s.bays.readings := by
  simp only [startListen]
  split
  · simp
  · split <;> simp

theorem startLeak_readings (b : BayId) (o : LeakOps) (s : State) : (startLeak b o s).2.bays.readings = s.bays.readings := by
  simp only [startLeak]
  split
  · simp
  · split <;> simp

@[simp] theorem startWork_readings (b : BayId) (ops : Operands) (s : State) :
    (startWork b ops s).2.bays.readings = s.bays.readings := by
  cases ops with
  | ramp o => exact startRamp_readings ..
  | dwell o => exact startDwell_readings ..
  | listen o => exact startListen_readings ..
  | leak o => exact startLeak_readings ..

@[simp] theorem beginStep_readings (b : BayId) (rec : StepRecord) (s : State) :
    (beginStep b rec s).2.bays.readings = s.bays.readings := by
  simp only [beginStep]
  split
  · exact takeFault_readings ..
  · split <;> simp

@[simp] theorem enterStep_readings (b : BayId) (k : Nat) (rec : StepRecord) (s : State) :
    (enterStep b k rec s).2.bays.readings = s.bays.readings := by
  simp only [enterStep]
  split
  · simp
  · split <;> simp

theorem walk_readings (fuel : Nat) (b : BayId) (link : Nat) (s : State) : (walk fuel b link s).bays.readings = s.bays.readings := by
  induction fuel generalizing link s with
  | zero => exact enterClosing_readings ..
  | succ n ih =>
    simp only [walk]
    split
    · exact enterClosing_readings ..
    split
    · exact enterHeld_readings ..
    split
    · exact enterClosing_readings ..
    split
    · exact enterClosing_readings ..
    split
    · rw [ih, mapRecord_readings, enterStep_readings]
    · exact enterStep_readings ..

@[simp] theorem endStep_readings (b : BayId) (s : State) : (endStep b s).bays.readings = s.bays.readings := by
  simp only [endStep, boundary, walk_readings, mapRecord_readings]

/-! ### A vibration sample offered (R113 to R116) -/

@[simp] theorem failAcquisition_readings (b : BayId) (k : BufId) (c : Cause) (s : State) :
    (failAcquisition b k c s).bays.readings = s.bays.readings := by
  simp [failAcquisition]

theorem completeRow_readings (b : BayId) (k : BufId) (row : List Int) (s : State) :
    (completeRow b k row s).bays.readings = s.bays.readings := by
  simp only [completeRow, finishAcquisition]
  split
  · split <;> simp
  · simp

theorem slip_readings (b : BayId) (k : BufId) (lane : Nat) (v : Int) (s : State) :
    (slip b k lane v s).bays.readings = s.bays.readings := by
  simp only [slip]
  split
  · simp
  · split <;> simp

theorem offerVibration_readings (b : BayId) (angle : Nat) (v : Int) (s : State) :
    (offerVibration b angle v s).bays.readings = s.bays.readings := by
  simp only [offerVibration]
  split
  · split
    · exact mapNoise_readings ..
    · rfl
  · split
    · exact slip_readings ..
    · split
      · exact completeRow_readings ..
      · exact mapNoise_readings ..
  · rfl

/-! ## A VIBRATION word (R98, R99) -/

theorem exec_vibrationWord (b : BayId) (payload : BitVec 22) (s : State) :
    exec (.vibrationWord b payload) s = execVibrationWord b payload s := rfl

/-- Settles O32: the staged sample is justified, and the offer that follows its staging leaves it there. -/
theorem vibrationWordsAreJustified : Obligations.VibrationWordsAreJustified := by
  refine ⟨fun w value h12 h16 => ?justified, fun b payload s => ?staged⟩
  case justified =>
    exact ⟨(value.setWidth w).toInt, BitVec.le_toInt _, BitVec.toInt_lt, toInt_setWidth_sub_emod w value, rfl,
      justify_bounds value (by omega) h16⟩
  case staged =>
    refine ⟨_, exec_vibrationWord b payload s, ?_⟩
    rw [vibration_of_readings (offerVibration_readings ..), mapSensor_bay_same]
    rfl

end Sys2Proof.Machine
end

section
/-! PROOF. The leak rate of a decay: GAIN below 0, rounded half up from 0, and saturated above 65535 (R145). -/

namespace Sys2Proof.Machine

/-! ## Rounding half up -/

/-- The floor of `(n + ⌊d / 2⌋) / d` lies within half of `n / d`: an odd `d` loses half a unit in `⌊d / 2⌋`, and that half never decides. -/
theorem halfUp_bounds (n : Int) {d : Int} (hd : 0 < d) :
    2 * d * ((n + d / 2) / d) ≤ 2 * n + d ∧ 2 * n + d < 2 * d * ((n + d / 2) / d + 1) := by
  have hLow : d * ((n + d / 2) / d) ≤ n + d / 2 := Int.mul_ediv_self_le hd.ne'
  have hHigh : n + d / 2 < d * ((n + d / 2) / d) + d := Int.lt_mul_ediv_self_add hd
  simp only [mul_add, mul_one, mul_assoc]
  omega

/-! ## The leak rate (R145) -/

/-- The product of the greatest decay and the greatest volume stays below 6.3 × 10^13. -/
theorem leakProduct_lt {dp v : Int} (hDecay : dp ≤ 262140) (hVolume : 0 ≤ v) (hLimit : v ≤ 40000) :
    dp * v * 6000 < 63000000000000 := by
  have hProduct : dp * v ≤ 262140 * 40000 := mul_le_mul hDecay hLimit hVolume (by decide)
  omega

theorem rawRate_nonneg {dp v tm : Int} (hDecay : 0 ≤ dp) (hVolume : 0 ≤ v) (hTime : 0 ≤ tm) : 0 ≤ rawRate dp v tm := by
  unfold rawRate
  positivity

theorem leakRate_gain {dp : Int} (v tm : Int) (notes : Notes) (h : dp < 0) :
    leakRate dp v tm notes = (0, { notes with gain := true }) := if_pos h

theorem leakRate_decay {dp : Int} (v tm : Int) (notes : Notes) (h : 0 ≤ dp) :
    leakRate dp v tm notes =
      if 65535 < rawRate dp v tm then (65535, { notes with saturatedQ := true }) else (rawRate dp v tm, notes) :=
  if_neg h.not_gt

theorem leakRate_bounds {dp v tm : Int} (notes : Notes) (hVolume : 0 ≤ v) (hTime : 0 ≤ tm) :
    0 ≤ (leakRate dp v tm notes).1 ∧ (leakRate dp v tm notes).1 ≤ 65535 := by
  rcases lt_or_ge dp 0 with hGain | hDecay
  · simp [leakRate_gain v tm notes hGain]
  · rw [leakRate_decay v tm notes hDecay]
    split
    case isTrue => simp
    case isFalse hUnsaturated => exact ⟨rawRate_nonneg hDecay hVolume hTime, not_lt.mp hUnsaturated⟩

/-- Settles O21: the rate of a decay from 0 is the raw rate, a rounding half up, capped at 65535. -/
theorem leakRateIsBanded : Obligations.LeakRateIsBanded := by
  intro dp v tm notes hDecay hVolumeLow hVolumeHigh hTimeLow _
  have hVolume : 0 ≤ v := by omega
  have hTime : 0 < tm := by omega
  obtain ⟨hLow, hHigh⟩ := halfUp_bounds (dp * v * 6000) (show 0 < 101325 * tm by omega)
  exact ⟨leakRate_gain v tm notes,
    fun h => ⟨rawRate dp v tm, hLow, hHigh, rfl, leakProduct_lt hDecay hVolume hVolumeHigh, leakRate_decay v tm notes h⟩,
    leakRate_bounds notes hVolume hTime.le⟩

end Sys2Proof.Machine
end

section
/-! PROOF. The invariants that every small change keeps: the queue of commands, the manifold's lines, the reducer, the numbers of the
reports, the stored values and the pending sets (R4, R41, R46, R108, R132, R153, R174, R178). -/

namespace Sys2Proof.Machine

/-! ## From small changes to steps -/

/-- A step executes one command on the state without it, or does nothing. -/
theorem step_exec {s t : State} (h : step s = .next t) :
    t = s ∨ ∃ c cs, s.pending = c :: cs ∧ exec c { s with pending := cs } = .next t := by
  unfold step at h
  split at h
  · cases h; exact .inl rfl
  · next c cs hq => exact .inr ⟨c, cs, hq, h⟩

/-- An invariant that does not look at the queue and that every command keeps, every step keeps. -/
theorem step_keep {P : State → Prop} (hQueue : ∀ s cs, P s → P { s with pending := cs })
    (hExec : ∀ c s t, P s → exec c s = .next t → P t) {s t : State} (hs : P s) (h : step s = .next t) : P t := by
  obtain rfl | ⟨c, cs, -, he⟩ := step_exec h
  · exact hs
  · exact hExec c _ t (hQueue s cs hs) he

/-- What every small change keeps, every step keeps. -/
theorem step_keep_of_change {P : State → Prop} (hQueue : ∀ s cs, P s → P { s with pending := cs })
    (hP : ∀ s t, Change s t → P s → P t) {s t : State} (hs : P s) (h : step s = .next t) : P t :=
  step_keep hQueue (fun _ _ _ hs he => (exec_changes he).keep hP hs) hs h

/-! ## The queue of commands (log 1, log 24) -/

theorem Change.pending_eq {s t : State} (h : Change s t) : t.pending = s.pending := by
  cases h <;> simp [setFill, portTick]

theorem exec_pending {i : Instr} {s t : State} (h : exec i s = .next t) : t.pending = s.pending :=
  (exec_changes h).keep (P := fun u => u.pending = s.pending) (fun _ _ hc hu => hc.pending_eq.trans hu) rfl

/-- Settles O1: a step on `c :: cs` is `exec c` by definition, and no small change moves the queue. -/
theorem stepExecutesFrontCommand : Obligations.StepExecutesFrontCommand := by
  refine ⟨fun _ _ _ => rfl, fun s hs => ?_, fun _ _ _ => exec_pending⟩
  simp [step, hs]

/-! ## The manifold (R132) -/

theorem ManifoldOk.congr {s t : State} (h : ManifoldOk s) (hFill : ∀ b, (t.record b).lines.fill = (s.record b).lines.fill)
    (hGranted : t.manifold.granted = s.manifold.granted) : ManifoldOk t := fun b => by
  rw [hFill, hGranted]; exact h b

theorem setFill_record_manifold (b c : BayId) (v : Bool) (m : ManifoldArbiter) (s : State) :
    (setFill b v { s with manifold := m }).record c =
      if c = b then { s.record c with lines := { (s.record c).lines with fill := v } } else s.record c :=
  setFill_record ..

/-- A free manifold is granted and the line of its holder asserted. -/
theorem ManifoldOk.grant {s : State} (b : BayId) (rest : List BayId) (hFree : s.manifold.granted = none) (h : ManifoldOk s) :
    ManifoldOk (setFill b true { s with manifold := { granted := some b, queue := rest } }) := fun c => by
  have hc : (s.record c).lines.fill = true ↔ s.manifold.granted = some c := h c
  rw [setFill_record_manifold]
  by_cases hcb : c = b
  · simp [hcb]
  · simpa [hcb, Ne.symm hcb, hFree] using hc

/-- The holder gives the manifold up and its line falls. -/
theorem ManifoldOk.release {s : State} (b : BayId) (hHolder : s.manifold.granted = some b) (h : ManifoldOk s) :
    ManifoldOk (setFill b false { s with manifold := { s.manifold with granted := none } }) := fun c => by
  have hc : (s.record c).lines.fill = true ↔ s.manifold.granted = some c := h c
  rw [setFill_record_manifold]
  by_cases hcb : c = b
  · simp [hcb]
  · simpa [hcb, Ne.symm hcb, hHolder] using hc

theorem Change.manifoldOk {s t : State} (hc : Change s t) (h : ManifoldOk s) : ManifoldOk t := by
  cases hc with
  | record b f s hFill _ =>
    refine h.congr (fun c => ?_) rfl
    rw [mapRecord_recordOf]
    split
    · exact hFill _
    · rfl
  | config b c s => exact h.congr (fun c => by rw [State.record, mapBay_bay]; split <;> rfl) rfl
  | drive b f s => exact h.congr (by simp) rfl
  | sensor b f s => exact h.congr (by simp) rfl
  | leak b f s => exact h.congr (by simp) rfl
  | row b f s _ _ => exact h.congr (by simp) rfl
  | content b k f s _ => exact h.congr (by simp) rfl
  | acquisition b k f s _ _ => exact h.congr (by simp) rfl
  | enqueue b k s _ => exact h.congr (fun c => by rw [joinReducer_record]; split <;> rfl) (by simp)
  | engine s => exact h.congr (by simp) (by simp)
  | cancel b k s => exact h.congr (fun c => by rw [cancelBuffer_record]; split <;> rfl) (by simp)
  | reduced j s _ => exact h.congr (fun c => by rw [freeReduced_record]; split <;> rfl) (by simp)
  | grant b rest s hFree _ => exact h.grant b rest hFree
  | release b s hHolder => exact h.release b hHolder
  | hand b rep s => exact h.congr (fun c => by rw [handReport_record]; split <;> rfl) (by simp)
  | take s _ => exact h.congr (fun c => by rw [takeHead_record]; split <;> rfl) (by simp)
  | reset s => intro b; simp [powerOn_record, State.reset, BayRecord.reset]
  | _ => exact h

/-! ## The reducer (R108, R119) -/

/-- The pending reductions that a bay's two buffers stand for. -/
def pendingBuffers (s : State) (b : BayId) : Nat := (s.buf b .a0).pending + (s.buf b .a1).pending

theorem ReducerOk.congr {s t : State} (h : ReducerOk s) (hState : ∀ b k, (t.buf b k).state = (s.buf b k).state)
    (hReducer : t.reducer = s.reducer) (hCount : ∀ b, (t.record b).pendingReductions = (s.record b).pendingReductions) :
    ReducerOk t where
  queued b k := by rw [hReducer, hState]; exact h.queued b k
  once := by rw [hReducer]; exact h.once
  reducing b k := by rw [hReducer, hState]; exact h.reducing b k
  count b := by rw [hCount, h.count]; simp [ListenBuffer.pending, hState]

/-- A change of one buffer moves its bay's sum by that buffer. -/
theorem pendingBuffers_of_one {s t : State} {b : BayId} {k : BufId} (hOther : ∀ l, l ≠ k → t.buf b l = s.buf b l) :
    pendingBuffers t b + (s.buf b k).pending = pendingBuffers s b + (t.buf b k).pending := by
  cases k with
  | a0 => simp only [pendingBuffers, hOther .a1 (by decide)]; omega
  | a1 => simp only [pendingBuffers, hOther .a0 (by decide)]; omega

theorem pendingBuffers_of_none {s t : State} {b : BayId} (h : ∀ l, t.buf b l = s.buf b l) :
    pendingBuffers t b = pendingBuffers s b := by
  simp only [pendingBuffers, h]

theorem ListenBuffer.pending_eq {x : ListenBuffer} : x.pending = if x.state = .queued ∨ x.state = .reducing then 1 else 0 := rfl

theorem ReducerOk.acquisition {s : State} {b : BayId} {k : BufId} {f : ListenBuffer → ListenBuffer}
    (hOld : (s.buf b k).state = .free ∨ (s.buf b k).state = .acquiring) (hNew : ∀ x, (f x).state = .free ∨ (f x).state = .acquiring)
    (h : ReducerOk s) : ReducerOk (mapBuf b k f s) := by
  have hIdle : ∀ c l, c = b ∧ l = k → (s.buf c l).state ≠ .queued ∧ (s.buf c l).state ≠ .reducing ∧
      (f (s.buf c l)).state ≠ .queued ∧ (f (s.buf c l)).state ≠ .reducing := by
    rintro c l ⟨rfl, rfl⟩
    rcases hOld with h1 | h1 <;> rcases hNew (s.buf c l) with h2 | h2 <;> simp [h1, h2]
  have hQueued : ∀ c l, ((mapBuf b k f s).buf c l).state = .queued ↔ (s.buf c l).state = .queued := by
    intro c l; rw [mapBuf_buf]; split
    · next hcl => simp [hIdle c l hcl]
    · rfl
  have hReducing : ∀ c l, ((mapBuf b k f s).buf c l).state = .reducing ↔ (s.buf c l).state = .reducing := by
    intro c l; rw [mapBuf_buf]; split
    · next hcl => simp [hIdle c l hcl]
    · rfl
  exact {
    queued := fun c l => (h.queued c l).trans (hQueued c l).symm
    once := h.once
    reducing := fun c l => (h.reducing c l).trans (hReducing c l).symm
    count := fun c => by simp only [mapBuf_recordOf, h.count, ListenBuffer.pending, hQueued, hReducing] }

theorem ReducerOk.enqueue {s : State} {b : BayId} {k : BufId} (hOld : (s.buf b k).state = .acquiring) (h : ReducerOk s) :
    ReducerOk (joinReducer b k s) := by
  have hNot : (b, k) ∉ s.reducer.queue := fun hm => by simpa [hOld] using (h.queued b k).mp hm
  refine { queued := fun c l => ?queued, once := ?once, reducing := fun c l => ?reducing, count := fun c => ?count }
  case queued =>
    have hcl := h.queued c l
    rw [joinReducer_buf]
    by_cases he : c = b ∧ l = k
    · obtain ⟨rfl, rfl⟩ := he; simp
    · have he' : ¬(c, l) = (b, k) := fun e => he (by cases e; exact ⟨rfl, rfl⟩)
      simpa [he, he'] using hcl
  case once =>
    rw [joinReducer_reducer]
    exact List.nodup_append.mpr ⟨h.once, by simp, fun x hx y hy => by simp at hy; rintro rfl; exact hNot (hy ▸ hx)⟩
  case reducing =>
    have hcl := h.reducing c l
    rw [joinReducer_buf]
    by_cases he : c = b ∧ l = k
    · obtain ⟨rfl, rfl⟩ := he
      have hne : ¬∃ t, s.reducer.engine = some ⟨c, l, t⟩ := fun e => by simp [hcl.mp e] at hOld
      simpa using hne
    · simpa [he] using hcl
  case count =>
    have hc : (s.record c).pendingReductions = pendingBuffers s c := h.count c
    show _ = pendingBuffers (joinReducer b k s) c
    rw [joinReducer_record]
    by_cases he : c = b
    · subst he
      have hp := pendingBuffers_of_one (t := joinReducer c k s) (s := s) (b := c) (k := k) fun l hl => by simp [joinReducer_buf, hl]
      simp only [joinReducer_buf, ListenBuffer.pending_eq, hOld] at hp
      simp at hp ⊢
      omega
    · rw [pendingBuffers_of_none (s := s) fun l => by simp [joinReducer_buf, he]]
      simpa [he] using hc

theorem ReducerOk.engineTake {s : State} (h : ReducerOk s) : ReducerOk (engineTake s) := by
  unfold Machine.engineTake
  split
  · next b k rest hEngine hQueue =>
    have hHead : (s.buf b k).state = .queued := (h.queued b k).mp (by simp [hQueue])
    have hOnce := h.once
    rw [hQueue, List.nodup_cons] at hOnce
    have hBuf : ∀ c l, (mapBuf b k (fun x => { x with state := .reducing })
        { s with reducer := { queue := rest, engine := some ⟨b, k, s.now⟩ } }).buf c l =
          if c = b ∧ l = k then { s.buf c l with state := .reducing } else s.buf c l := fun c l => mapBuf_buf ..
    refine { queued := fun c l => ?queued, once := hOnce.2, reducing := fun c l => ?reducing, count := fun c => ?count }
    case queued =>
      have hcl := h.queued c l
      rw [hQueue] at hcl
      rw [hBuf]
      by_cases he : c = b ∧ l = k
      · obtain ⟨rfl, rfl⟩ := he; simpa using hOnce.1
      · have he' : ¬(c, l) = (b, k) := fun e => he (by cases e; exact ⟨rfl, rfl⟩)
        simpa [he, he'] using hcl
    case reducing =>
      have hcl := h.reducing c l
      rw [hEngine] at hcl
      rw [hBuf]
      by_cases he : c = b ∧ l = k
      · obtain ⟨rfl, rfl⟩ := he; simp
      · have he' : ¬(b = c ∧ k = l) := fun e => he ⟨e.1.symm, e.2.symm⟩
        simpa [he, he'] using hcl
    case count =>
      rw [mapBuf_recordOf]
      refine (h.count c).trans ?_
      have hPending : ∀ l, ((mapBuf b k (fun x => { x with state := .reducing })
        { s with reducer := { queue := rest, engine := some ⟨b, k, s.now⟩ } }).buf c l).pending = (s.buf c l).pending := fun l => by
          rw [hBuf]
          split
          · next he => obtain ⟨rfl, rfl⟩ := he; simp [ListenBuffer.pending, hHead]
          · rfl
      rw [hPending, hPending]
  · exact h

theorem ReducerOk.cancel {s : State} {b : BayId} {k : BufId} (h : ReducerOk s) : ReducerOk (cancelBuffer b k s) := by
  by_cases hOld : (s.buf b k).state = .queued
  case neg =>
    refine h.congr (fun c l => ?_) (by rw [cancelBuffer_reducer, if_neg hOld]) fun c => by simp [cancelBuffer_record, hOld]
    rw [cancelBuffer_buf]
    split
    · next he => obtain ⟨rfl, rfl⟩ := he; split <;> simp_all
    · rfl
  case pos =>
    have hBuf : ∀ c l, (cancelBuffer b k s).buf c l = if c = b ∧ l = k then (s.buf b k).freed else s.buf c l := fun c l => by
      rw [cancelBuffer_buf, hOld]
    refine { queued := fun c l => ?queued, once := ?once, reducing := fun c l => ?reducing, count := fun c => ?count }
    case queued =>
      have hcl := h.queued c l
      rw [cancelBuffer_reducer, if_pos hOld, hBuf]
      by_cases he : c = b ∧ l = k
      · obtain ⟨rfl, rfl⟩ := he; simp [ListenBuffer.freed]
      · have he' : ¬(c, l) = (b, k) := fun e => he (by cases e; exact ⟨rfl, rfl⟩)
        simpa [he, he'] using hcl
    case once =>
      rw [cancelBuffer_reducer, if_pos hOld]
      exact h.once.filter _
    case reducing =>
      have hcl := h.reducing c l
      rw [cancelBuffer_reducer, if_pos hOld, hBuf]
      by_cases he : c = b ∧ l = k
      · obtain ⟨rfl, rfl⟩ := he
        have hne : ¬∃ t, s.reducer.engine = some ⟨c, l, t⟩ := fun e => by simp [hcl.mp e] at hOld
        simpa [ListenBuffer.freed] using hne
      · simpa [he] using hcl
    case count =>
      have hc : (s.record c).pendingReductions = pendingBuffers s c := h.count c
      show _ = pendingBuffers (cancelBuffer b k s) c
      rw [cancelBuffer_record]
      by_cases he : c = b
      · subst he
        have hp := pendingBuffers_of_one (t := cancelBuffer c k s) (s := s) (b := c) (k := k) fun l hl => by simp [hBuf, hl]
        simp only [hBuf, ListenBuffer.pending_eq, hOld, ListenBuffer.freed] at hp
        simp [hOld] at hp ⊢
        omega
      · rw [pendingBuffers_of_none (s := s) fun l => by simp [hBuf, he]]
        simpa [he] using hc

theorem ReducerOk.reduced {s : State} {j : EngineJob} (hJob : s.reducer.engine = some j) (h : ReducerOk s) :
    ReducerOk (freeReduced j s) := by
  have hOld : (s.buf j.bay j.buf).state = .reducing := (h.reducing j.bay j.buf).mp ⟨j.start, hJob⟩
  refine { queued := fun c l => ?queued, once := h.once, reducing := fun c l => ?reducing, count := fun c => ?count }
  case queued =>
    have hcl := h.queued c l
    rw [freeReduced_reducer, freeReduced_buf]
    by_cases he : c = j.bay ∧ l = j.buf
    · obtain ⟨rfl, rfl⟩ := he
      simpa [ListenBuffer.freed, hOld] using hcl
    · simpa [he] using hcl
  case reducing =>
    have hcl := h.reducing c l
    rw [freeReduced_reducer, freeReduced_buf]
    by_cases he : c = j.bay ∧ l = j.buf
    · simp [he, ListenBuffer.freed]
    · have hne : ¬∃ t, s.reducer.engine = some ⟨c, l, t⟩ := fun ⟨t, e⟩ => he (by rw [hJob] at e; cases e; exact ⟨rfl, rfl⟩)
      simpa [he] using fun e => hne (hcl.mpr e)
  case count =>
    have hc : (s.record c).pendingReductions = pendingBuffers s c := h.count c
    show _ = pendingBuffers (freeReduced j s) c
    rw [freeReduced_record]
    by_cases he : c = j.bay
    · subst he
      have hp := pendingBuffers_of_one (t := freeReduced j s) (s := s) (b := j.bay) (k := j.buf) fun l hl => by
        simp [freeReduced_buf, hl]
      simp only [freeReduced_buf, ListenBuffer.pending_eq, hOld, ListenBuffer.freed] at hp
      simp at hp ⊢
      omega
    · rw [pendingBuffers_of_none (s := s) fun l => by simp [freeReduced_buf, he]]
      simpa [he] using hc

theorem reducerOk_powerOn (s : State) : ReducerOk (powerOn s) where
  queued b k := by simp [powerOn_buf, State.reset, ListenBuffer.reset]
  once := by simp [State.reset]
  reducing b k := by simp [powerOn_buf, State.reset, ListenBuffer.reset]
  count b := by simp [powerOn_buf, powerOn_record, ListenBuffer.pending, ListenBuffer.reset, BayRecord.reset]

/-- A state that differs in no buffer, no count and nothing of the reducer keeps the reducer's order. -/
theorem ReducerOk.of_noise {s t : State} (h : ReducerOk s) (hNoise : ∀ b, (t.bay b).noise = (s.bay b).noise)
    (hReducer : t.reducer = s.reducer) (hCount : ∀ b, (t.record b).pendingReductions = (s.record b).pendingReductions) :
    ReducerOk t :=
  h.congr (fun b k => by rw [buf_congr hNoise]) hReducer hCount

theorem Change.reducerOk {s t : State} (hc : Change s t) (h : ReducerOk s) : ReducerOk t := by
  cases hc with
  | record b f s _ hCount =>
    refine h.of_noise (by simp) rfl fun c => ?_
    rw [mapRecord_recordOf]
    split
    · exact hCount _
    · rfl
  | config b c s =>
    exact h.of_noise (fun c => by rw [mapBay_bay]; split <;> rfl) rfl fun c => by rw [State.record, mapBay_bay]; split <;> rfl
  | drive b f s => exact h.of_noise (by simp) rfl (by simp)
  | sensor b f s => exact h.of_noise (by simp) rfl (by simp)
  | leak b f s => exact h.of_noise (by simp) rfl (by simp)
  | row b f s hA0 hA1 =>
    refine h.congr (fun c l => ?_) rfl (by simp)
    rw [State.buf, mapNoise_noise_part]
    split
    · cases l <;> simp [NoiseUnit.get, hA0, hA1, State.buf]
    · rfl
  | content b k f s hState =>
    refine h.congr (fun c l => ?_) rfl (by simp)
    rw [mapBuf_buf]
    split
    · exact hState _
    · rfl
  | acquisition b k f s hOld hNew => exact h.acquisition hOld hNew
  | enqueue b k s hOld => exact h.enqueue hOld
  | engine s => exact h.engineTake
  | cancel b k s => exact h.cancel
  | reduced j s hJob => exact h.reduced hJob
  | grant b rest s _ _ =>
    exact h.of_noise (fun c => mapRecord_noise b c _ _) rfl fun c => by rw [setFill_record_manifold]; split <;> rfl
  | release b s _ =>
    exact h.of_noise (fun c => mapRecord_noise b c _ _) rfl fun c => by rw [setFill_record_manifold]; split <;> rfl
  | hand b rep s => exact h.of_noise (by simp) (by simp) fun c => by rw [handReport_record]; split <;> rfl
  | take s _ => exact h.of_noise (by simp) (by simp) fun c => by rw [takeHead_record]; split <;> rfl
  | reset s => exact reducerOk_powerOn s
  | _ => exact h.of_noise (fun _ => rfl) rfl fun _ => rfl

/-- Settles O4: neither invariant looks at the queue, and every small change keeps both. -/
theorem sharedBlocksFollowBays : Obligations.SharedBlocksFollowBays := by
  refine ⟨fun s t hs h => ?manifold, fun s t hs h => ?reducer⟩
  case manifold => exact step_keep_of_change (fun _ _ hs => hs) (fun _ _ hc => hc.manifoldOk) hs h
  case reducer => exact step_keep_of_change (fun _ _ hs => hs.of_noise (fun _ => rfl) rfl fun _ => rfl) (fun _ _ hc => hc.reducerOk) hs h

end Sys2Proof.Machine
end

section
/-! PROOF. Report numbers, pending sets, stored values and the power-on state. -/

namespace Sys2Proof.Machine

/-! ## The report queue (R153, R154) -/

theorem QueueOk.congr {s t : State} (h : QueueOk s) (hReports : t.reports = s.reports) : QueueOk t where
  capacity := by rw [hReports]; exact h.capacity
  waiting := by rw [hReports]; exact h.waiting
  numbers := by rw [hReports]; exact h.numbers
  next := by rw [hReports]; exact h.next

theorem nextSequenceOf_bounds {n : Nat} (h : 1 ≤ n) : 1 ≤ nextSequenceOf n ∧ nextSequenceOf n ≤ 4294967295 := by
  unfold nextSequenceOf; split <;> omega

/-- A report that takes the next number continues the chain of numbers. -/
theorem numbers_append {queue : List Report} {n : Nat} (rep : Report) (hn : 1 ≤ n ∧ n ≤ 4294967295)
    (h : List.IsChain follows (queue.map (·.sequence) ++ [some n])) :
    List.IsChain follows
      ((queue ++ [{ rep with sequence := some n }]).map Report.sequence ++ [some (nextSequenceOf n)]) := by
  rw [List.map_append, List.append_assoc]
  refine List.isChain_split.mpr ⟨h, ?_⟩
  exact List.isChain_pair.mpr ⟨n, rfl, hn.1, hn.2, rfl⟩

/-- The numbers go on without the head of the queue. -/
theorem numbers_drop {queue : List Report} {n : Nat} (hq : queue ≠ [])
    (h : List.IsChain follows (queue.map (·.sequence) ++ [some n])) :
    List.IsChain follows ((queue.drop 1).map (·.sequence) ++ [some n]) := by
  cases queue with
  | nil => exact absurd rfl hq
  | cons r rs => exact h.tail

theorem QueueOk.hand {s : State} (b : BayId) (rep : Report) (h : QueueOk s) : QueueOk (handReport b rep s) := by
  by_cases hRoom : s.reports.queue.length < Config.reportCapacity
  case pos =>
    have hReports : (handReport b rep s).reports = _ := (handReport_reports ..).trans ((if_pos hRoom).trans (commit_reports ..))
    have hNobody : s.reports.waiting = [] := by
      by_contra hw
      exact hRoom.ne (h.waiting hw)
    exact {
      capacity := by rw [hReports]; simpa using hRoom
      waiting := by rw [hReports]; simp [hNobody]
      numbers := by rw [hReports]; exact numbers_append rep h.next h.numbers
      next := by rw [hReports]; exact nextSequenceOf_bounds h.next.1 }
  case neg =>
    have hReports : (handReport b rep s).reports = _ := (handReport_reports ..).trans (if_neg hRoom)
    exact {
      capacity := by rw [hReports]; exact h.capacity
      waiting := by rw [hReports]; exact fun _ => le_antisymm h.capacity (not_lt.mp hRoom)
      numbers := by rw [hReports]; exact h.numbers
      next := by rw [hReports]; exact h.next }

theorem QueueOk.take {s : State} (hq : s.reports.queue ≠ []) (h : QueueOk s) : QueueOk (takeHead s) := by
  have hLength := h.capacity
  have hReports := takeHead_reports s
  cases hw : s.reports.waiting with
  | nil =>
    rw [hw] at hReports
    exact {
      capacity := by rw [hReports]; simp only [List.length_drop]; omega
      waiting := by rw [hReports]; simp [hw]
      numbers := by rw [hReports]; exact numbers_drop hq h.numbers
      next := by rw [hReports]; exact h.next }
  | cons w ws =>
    rw [hw] at hReports
    have hFull : s.reports.queue.length = Config.reportCapacity := h.waiting (by simp [hw])
    have hBack : (s.reports.queue.drop 1).length + 1 = Config.reportCapacity := by simp [hFull, Config.reportCapacity]
    exact {
      capacity := by rw [hReports]; simpa using hBack.le
      waiting := by rw [hReports]; simpa using fun _ => hBack
      numbers := by rw [hReports]; exact numbers_append w.report h.next (numbers_drop hq h.numbers)
      next := by rw [hReports]; exact nextSequenceOf_bounds h.next.1 }

theorem queueOk_reset {s : State} (h : s.reports = State.reset.reports) : QueueOk s := by
  constructor <;> simp [h, State.reset]

theorem Change.queueOk {s t : State} (hc : Change s t) (h : QueueOk s) : QueueOk t := by
  cases hc with
  | enqueue b k s _ => exact h.congr (by simp)
  | engine s => exact h.congr (by simp)
  | cancel b k s => exact h.congr (by simp)
  | hand b rep s => exact h.hand b rep
  | take s hq => exact h.take hq
  | reset s => exact queueOk_reset (powerOn_reports s)
  | _ => exact h.congr rfl

/-! ## Pending sets (R174 to R178) -/

theorem Port.refreshNtf_noticesOk {p : Port} (ordered : p.notices.Pairwise (fun m n => m.key ≤ n.key)) (once : p.notices.Nodup)
    (hMask : ∀ n ∈ p.notices, Machine.unmasked p.mask n = true) (timer : p.quietTimer ≤ 1000) (interval : p.interval ≤ 1000) :
    p.refreshNtf.NoticesOk :=
  ⟨ordered, once, hMask, timer, interval, by simp [Port.refreshNtf]⟩

theorem mem_insertNotice {n m : Notice} {ms : List Notice} : m ∈ insertNotice n ms ↔ m = n ∨ m ∈ ms := by
  induction ms with
  | nil => simp [insertNotice]
  | cons x xs ih =>
    unfold insertNotice
    split
    · next h => subst h; simp
    · split
      · simp
      · simp [ih]; tauto

theorem insertNotice_ordered {n : Notice} {ms : List Notice} (h : ms.Pairwise (fun a b => a.key ≤ b.key)) :
    (insertNotice n ms).Pairwise (fun a b => a.key ≤ b.key) := by
  induction ms with
  | nil => simp [insertNotice]
  | cons x xs ih =>
    obtain ⟨hx, hxs⟩ := List.pairwise_cons.mp h
    unfold insertNotice
    split
    · exact h
    · split
      · next hlt =>
        refine List.pairwise_cons.mpr ⟨fun y hy => ?_, h⟩
        rcases List.mem_cons.mp hy with rfl | hy
        · exact hlt.le
        · exact hlt.le.trans (hx y hy)
      · next hlt =>
        refine List.pairwise_cons.mpr ⟨fun y hy => ?_, ih hxs⟩
        rcases mem_insertNotice.mp hy with rfl | hy
        · exact not_lt.mp hlt
        · exact hx y hy

/-- In a list in the order of `key`, the first greater key ends the search for an equal pair. -/
theorem insertNotice_once {n : Notice} {ms : List Notice} (hOrder : ms.Pairwise (fun a b => a.key ≤ b.key)) (h : ms.Nodup) :
    (insertNotice n ms).Nodup := by
  induction ms with
  | nil => simp [insertNotice]
  | cons x xs ih =>
    obtain ⟨hx, hxs⟩ := List.pairwise_cons.mp hOrder
    obtain ⟨hNew, hRest⟩ := List.nodup_cons.mp h
    unfold insertNotice
    split
    · exact h
    · next hne =>
      split
      · next hlt =>
        refine List.nodup_cons.mpr ⟨fun hm => ?_, h⟩
        rcases List.mem_cons.mp hm with rfl | hm
        · exact hne rfl
        · exact absurd (hx n hm) (not_le.mpr hlt)
      · refine List.nodup_cons.mpr ⟨fun hm => ?_, ih hxs hRest⟩
        rcases mem_insertNotice.mp hm with rfl | hm
        · exact hne rfl
        · exact hNew hm

theorem Port.NoticesOk.offer {p : Port} (n : Notice) (h : p.NoticesOk) : (p.offer n).NoticesOk := by
  unfold Port.offer
  split
  · next hm =>
    refine Port.refreshNtf_noticesOk (insertNotice_ordered h.ordered) (insertNotice_once h.ordered h.once) (fun m hIn => ?_)
      h.timer h.interval
    rcases mem_insertNotice.mp hIn with rfl | hIn
    · exact hm
    · exact h.unmasked m hIn
  · exact h

theorem Port.NoticesOk.dropNotice {p : Port} {n : Notice} {rest : List Notice} (hp : p.notices = n :: rest) (h : p.NoticesOk) :
    (p.dropNotice rest).NoticesOk := by
  obtain ⟨ordered, once, hMask, timer, interval, -⟩ := h
  rw [hp] at ordered once hMask
  refine Port.refreshNtf_noticesOk ordered.of_cons once.of_cons (fun m hm => hMask m (.tail _ hm)) ?_ interval
  dsimp only
  split
  · exact interval
  · exact timer

theorem Port.NoticesOk.setMask {p : Port} (m : BitVec 10) (h : p.NoticesOk) : (p.setMask m).NoticesOk :=
  Port.refreshNtf_noticesOk (h.ordered.filter _) (h.once.filter _) (fun n hn => by simpa using (List.mem_filter.mp hn).2)
    h.timer h.interval

theorem Port.NoticesOk.tick {p : Port} (h : p.NoticesOk) : p.tick.NoticesOk :=
  Port.refreshNtf_noticesOk h.ordered h.once h.unmasked ((Nat.sub_le ..).trans h.timer) h.interval

theorem Port.NoticesOk.quietExpired {p : Port} (h : p.NoticesOk) : p.quietExpired.NoticesOk := by
  unfold Port.quietExpired
  split
  · exact Port.refreshNtf_noticesOk h.ordered h.once h.unmasked h.timer h.interval
  · exact h

theorem clampNat_bounds {lo hi : Nat} (v : Nat) (h : lo ≤ hi) : lo ≤ clampNat lo hi v ∧ clampNat lo hi v ≤ hi := by
  unfold clampNat; split <;> [skip; split] <;> omega

theorem clamp_bounds {lo hi : Int} (v : Int) (h : lo ≤ hi) : lo ≤ clamp lo hi v ∧ clamp lo hi v ≤ hi := by
  unfold clamp; split <;> [skip; split] <;> omega

theorem NoticesOk.mapPort {s : State} {p : PortId} {f : Port → Port} (h : NoticesOk s) (hf : (f (s.port p)).NoticesOk) :
    NoticesOk (mapPort p f s) := fun q => by
  rw [mapPort_port]
  split
  · next hq => subst hq; exact hf
  · exact h q

theorem NoticesOk.congr {s t : State} (h : NoticesOk s) (hPorts : t.ports = s.ports) : NoticesOk t := fun p => by
  rw [State.port, hPorts]; exact h p

theorem NoticesOk.raise {s : State} (n : Notice) (h : NoticesOk s) : NoticesOk (raise n s) := fun p => by
  rw [raise_port]; exact (h p).offer n

theorem NoticesOk.backlogCheck {s : State} (h : NoticesOk s) : NoticesOk (backlogCheck s) := by
  by_cases hc : s.cell.backlogThreshold ≤ s.reports.queue.length ∧ s.reports.backlog = false
  · exact (h.raise .backlog).congr ((backlogCheck_ports s).trans (if_pos hc))
  · exact h.congr ((backlogCheck_ports s).trans (if_neg hc))

theorem NoticesOk.commit {s : State} (b : BayId) (rep : Report) (h : NoticesOk s) : NoticesOk (commit b rep s) := by
  unfold Machine.commit
  exact .backlogCheck (.raise _ (.raise _ (h.congr rfl)))

theorem NoticesOk.hand {s : State} (b : BayId) (rep : Report) (h : NoticesOk s) : NoticesOk (handReport b rep s) := by
  unfold handReport
  split
  · exact h.commit b rep
  · exact h.congr rfl

theorem NoticesOk.take {s : State} (h : NoticesOk s) : NoticesOk (takeHead s) := by
  simp only [takeHead]
  split
  · exact .backlogCheck (h.congr rfl)
  · exact NoticesOk.commit _ _ (h.congr rfl)

theorem noticesOk_reset {s : State} (h : s.ports = Ports.reset) : NoticesOk s := fun p => by
  rw [State.port, h]
  cases p <;> constructor <;> simp [Ports.get, Ports.reset, Port.reset]

theorem Change.noticesOk {s t : State} (hc : Change s t) (h : NoticesOk s) : NoticesOk t := by
  cases hc with
  | notice n s => exact h.raise n
  | engine s => exact h.congr (by simp)
  | cancel b k s => exact h.congr (by simp)
  | hand b rep s => exact h.hand b rep
  | take s _ => exact h.take
  | port p f s hNotices hMask hInterval hTimer hNtf =>
    refine h.mapPort ?_
    obtain ⟨ordered, once, masked, timer, interval, line⟩ := h p
    constructor <;> simpa only [hNotices, hMask, hInterval, hTimer, hNtf]
  | readNotice p n rest s hp => exact h.mapPort ((h p).dropNotice hp)
  | mask p m s => exact h.mapPort ((h p).setMask m)
  | interval p ms s =>
    obtain ⟨ordered, once, masked, timer, -, line⟩ := h p
    exact h.mapPort ⟨ordered, once, masked, timer, (clampNat_bounds ms (Nat.zero_le 1000)).2, line⟩
  | timers s => intro p; rw [portTick_port]; exact (h p).tick
  | timerEnd p s => exact h.mapPort (h p).quietExpired
  | reset s => exact noticesOk_reset (powerOn_ports s)
  | _ => exact h.congr rfl

/-! ## The variant table, the countdown cells and the settings (R4, R41, R46) -/

theorem VariantsOk.congr {s t : State} (h : VariantsOk s) (hVariants : t.store.variants = s.store.variants) : VariantsOk t where
  capacity := by rw [hVariants]; exact h.capacity
  ascending := by rw [hVariants]; exact h.ascending
  codes := by rw [hVariants]; exact h.codes

theorem mem_insertVariant {v w : VariantEntry} {vs : List VariantEntry} (h : w ∈ insertVariant v vs) : w = v ∨ w ∈ vs := by
  induction vs with
  | nil => simpa [insertVariant] using h
  | cons x xs ih =>
    unfold insertVariant at h
    split at h
    · simpa using h
    · split at h
      · rcases List.mem_cons.mp h with rfl | h
        · exact .inl rfl
        · exact .inr (.tail _ h)
      · rcases List.mem_cons.mp h with rfl | h
        · exact .inr (.head _)
        · exact (ih h).imp_right (.tail _)

theorem insertVariant_ascending {v : VariantEntry} {vs : List VariantEntry} (h : vs.Pairwise (fun a b => a.code < b.code)) :
    (insertVariant v vs).Pairwise (fun a b => a.code < b.code) := by
  induction vs with
  | nil => simp [insertVariant]
  | cons x xs ih =>
    obtain ⟨hx, hxs⟩ := List.pairwise_cons.mp h
    unfold insertVariant
    split
    · next hlt =>
      refine List.pairwise_cons.mpr ⟨fun y hy => ?_, h⟩
      rcases List.mem_cons.mp hy with rfl | hy
      · exact hlt
      · exact hlt.trans (hx y hy)
    · next hge =>
      split
      · next he => exact List.pairwise_cons.mpr ⟨fun y hy => he ▸ hx y hy, hxs⟩
      · next hne =>
        refine List.pairwise_cons.mpr ⟨fun y hy => ?_, ih hxs⟩
        rcases mem_insertVariant hy with rfl | hy
        · omega
        · exact hx y hy

/-- A new code lengthens the table by one; a known one leaves its length. -/
theorem length_insertVariant {v : VariantEntry} {vs : List VariantEntry} (h : vs.Pairwise (fun a b => a.code < b.code)) :
    (insertVariant v vs).length = if (vs.find? (·.code == v.code)).isSome then vs.length else vs.length + 1 := by
  induction vs with
  | nil => simp [insertVariant]
  | cons x xs ih =>
    obtain ⟨hx, hxs⟩ := List.pairwise_cons.mp h
    unfold insertVariant
    split
    · next hlt =>
      have hNone : ∀ y ∈ x :: xs, ¬(y.code == v.code) = true := by
        intro y hy
        rcases List.mem_cons.mp hy with rfl | hy
        · simp; omega
        · have := hx y hy; simp; omega
      rw [List.find?_eq_none.mpr hNone]; simp
    · split
      · next he => simp [he]
      · next hne =>
        have hne' : ¬x.code = v.code := fun e => hne e.symm
        simp only [List.length_cons, ih hxs, List.find?_cons, beq_eq_false_iff_ne.mpr hne']
        split <;> rfl

theorem VariantsOk.insert {s : State} {v : VariantEntry} (hCode : isVariantCode v.code = true)
    (hRoom : (s.store.variant v.code).isSome ∨ s.store.variants.length < Config.variantCapacity) (h : VariantsOk s) :
    VariantsOk { s with store := { s.store with variants := insertVariant v s.store.variants } } where
  capacity := by
    have hc := h.capacity
    show (insertVariant v s.store.variants).length ≤ _
    rw [length_insertVariant h.ascending]
    simp only [PlanStore.variant] at hRoom
    split
    · exact hc
    · next hn => exact hRoom.resolve_left hn
  ascending := insertVariant_ascending h.ascending
  codes w hw := by
    rcases mem_insertVariant hw with rfl | hw
    · exact hCode
    · exact h.codes w hw

theorem auditDecrement_fields (st : PlanStore) (i : Nat) : (st.auditDecrement i).2.variants = st.variants ∧
    (st.auditDecrement i).2.slots = st.slots ∧ (st.auditDecrement i).2.directory = st.directory := by
  unfold PlanStore.auditDecrement; dsimp only; split <;> exact ⟨rfl, rfl, rfl⟩

theorem Change.variantsOk {s t : State} (hc : Change s t) (h : VariantsOk s) : VariantsOk t := by
  cases hc with
  | engine s => exact h.congr (by simp)
  | cancel b k s => exact h.congr (by simp)
  | hand b rep s => exact h.congr (by simp)
  | take s _ => exact h.congr (by simp)
  | plans st s hVariants _ => exact h.congr hVariants
  | variant v s hCode hRoom => exact h.insert hCode hRoom
  | unvariant code s =>
    exact ⟨(List.length_filter_le ..).trans h.capacity, h.ascending.filter _, fun v hv => h.codes v (List.mem_of_mem_filter hv)⟩
  | audit i s => exact h.congr (auditDecrement_fields ..).1
  | tables s => exact ⟨by simp [PlanStore.cleared, PlanStore.reset], .nil, fun v hv => nomatch hv⟩
  | reset s => exact ⟨by simp [PlanStore.reset], .nil, fun v hv => nomatch hv⟩
  | _ => exact h.congr rfl

theorem CountdownOk.congr {s t : State} (h : CountdownOk s) (hCommon : t.store.common = s.store.common) : CountdownOk t := by
  intro i hi; rw [PlanStore.commonAt, hCommon]; exact h i hi

theorem isCountdown_iff {i : Nat} : isCountdown i = true ↔ 56 ≤ i ∧ i ≤ 63 := by simp [isCountdown]

theorem commonAt_setCommon (st : PlanStore) (i j : Nat) (v : Int) :
    (st.setCommon i v).commonAt j = if j = i ∧ i < 64 then v else st.commonAt j := by
  simp only [PlanStore.commonAt, PlanStore.setCommon]
  by_cases hj : j < 64
  · by_cases he : i = j
    · subst he; simp [hj]
    · have : ¬j = i := fun e => he e.symm
      simp [hj, he, this]
  · have hne : ¬(j = i ∧ i < 64) := by omega
    simp [hj, hne]

theorem commonAt_commonReset {st : PlanStore} {i : Nat} (h : st.common = commonReset) (hi : isCountdown i = true) :
    st.commonAt i = 1 := by
  obtain ⟨h1, h2⟩ := isCountdown_iff.mp hi
  have hlt : i < 64 := by omega
  have : ¬i < 56 := by omega
  simp [PlanStore.commonAt, h, commonReset, hlt, this]

theorem CountdownOk.of_reset {s : State} (h : s.store.common = commonReset) : CountdownOk s := fun i hi => by
  rw [commonAt_commonReset h hi]; decide

theorem CountdownOk.setCommon {s : State} (i : Nat) (v : Int) (h : CountdownOk s)
    (hv : isCountdown i = true → 1 ≤ v ∧ v ≤ 65535) : CountdownOk { s with store := s.store.setCommon i v } := by
  intro j hj
  show 1 ≤ (s.store.setCommon i v).commonAt j ∧ (s.store.setCommon i v).commonAt j ≤ 65535
  rw [commonAt_setCommon]
  split
  · next he => exact hv (he.1 ▸ hj)
  · exact h j hj

theorem storedCell_bounds {i : Nat} (v : Int) (hi : isCountdown i = true) : 1 ≤ storedCell i v ∧ storedCell i v ≤ 65535 := by
  rw [storedCell, if_pos hi]; exact clamp_bounds v (by decide)

theorem CountdownOk.audit {s : State} (i : Nat) (h : CountdownOk s) : CountdownOk { s with store := (s.store.auditDecrement i).2 } := by
  unfold PlanStore.auditDecrement
  dsimp only
  split
  · exact h.setCommon i _ fun _ => clamp_bounds _ (by decide)
  · refine h.setCommon i _ fun hi => ?_
    have := h i hi
    omega

theorem Change.countdownOk {s t : State} (hc : Change s t) (h : CountdownOk s) : CountdownOk t := by
  cases hc with
  | engine s => exact h.congr (by simp)
  | cancel b k s => exact h.congr (by simp)
  | hand b rep s => exact h.congr (by simp)
  | take s _ => exact h.congr (by simp)
  | plans st s _ hCommon => exact h.congr hCommon
  | common i v s => exact h.setCommon i _ fun hi => storedCell_bounds v hi
  | audit i s => exact h.audit i
  | tables s => exact .of_reset rfl
  | reset s => exact .of_reset rfl
  | _ => exact h.congr rfl

theorem Change.settingsOk {s t : State} (hc : Change s t) (h : SettingsOk s) : SettingsOk t := by
  cases hc with
  | settings ramp threshold s =>
    have hr := clampNat_bounds (lo := 100) (hi := 2000) ramp (by decide)
    have ht := clampNat_bounds (lo := 1) (hi := 16) threshold (by decide)
    exact ⟨hr.1, hr.2, ht.1, ht.2⟩
  | engine s => simpa [SettingsOk] using h
  | cancel b k s => simpa [SettingsOk] using h
  | hand b rep s => simpa [SettingsOk] using h
  | take s _ => simpa [SettingsOk] using h
  | reset s => simp [SettingsOk, CellControl.reset]
  | _ => exact h

/-- Settles O7: each of the three is kept by every small change. -/
theorem storedValuesStayInRange : Obligations.StoredValuesStayInRange := by
  refine ⟨fun s t hs h => ?variants, fun s t hs h => ?countdown, fun s t hs h => ?settings⟩
  case variants => exact step_keep_of_change (fun _ _ hs => hs.congr rfl) (fun _ _ hc => hc.variantsOk) hs h
  case countdown => exact step_keep_of_change (fun _ _ hs => hs) (fun _ _ hc => hc.countdownOk) hs h
  case settings => exact step_keep_of_change (fun _ _ hs => hs) (fun _ _ hc => hc.settingsOk) hs h

/-! ## Audit cells (R46) -/

/-- Settles O22: both branches write cell `i` alone. -/
theorem auditDecrementReloads : Obligations.AuditDecrementReloads := by
  intro st i hi hLow hHigh
  have hlt : i < 64 := by have := isCountdown_iff.mp hi; omega
  obtain ⟨hVariants, hSlots, hDirectory⟩ := auditDecrement_fields st i
  have hClamp := clamp_bounds (lo := 1) (hi := 65535) (st.commonAt (i - 8)) (by decide)
  have hEq : st.auditDecrement i =
      if st.commonAt i = 1 then (true, st.setCommon i (clamp 1 65535 (st.commonAt (i - 8))))
      else (false, st.setCommon i (st.commonAt i - 1)) := by
    unfold PlanStore.auditDecrement
    simp only [sub_eq_zero]
  refine ⟨?_, ?_, ?_, ?_, ?_, ?_, hSlots, hDirectory, hVariants⟩ <;>
    by_cases h1 : st.commonAt i = 1 <;> simp [hEq, h1, commonAt_setCommon, hlt, hClamp] <;> omega

/-! ## Leak arithmetic (R144) -/

/-- Settles O20: `compensated` rounds half up, and `p2` lies on the side of the quotient that the two temperatures give. -/
theorem leakPressureIsCompensated : Obligations.LeakPressureIsCompensated := by
  intro p2 t1 t2 hp0 hp ht1 ht1' ht2 ht2'
  have hd : 0 < t2 := by omega
  obtain ⟨hLow, hHigh⟩ := halfUp_bounds (p2 * t1) hd
  have hProduct : p2 * t1 ≤ 262140 * 42315 := mul_le_mul hp ht1' (by omega) (by decide)
  refine ⟨hLow, hHigh, by omega, fun h => ?warmed, fun h => ?cooled⟩
  case warmed =>
    have hle : p2 * t1 ≤ p2 * t2 := mul_le_mul_of_nonneg_left h hp0
    unfold compensated
    rw [← Int.lt_add_one_iff]
    refine Int.ediv_lt_of_lt_mul hd ?_
    have : (p2 + 1) * t2 = p2 * t2 + t2 := by ring
    omega
  case cooled =>
    have hle : p2 * t2 ≤ p2 * t1 := mul_le_mul_of_nonneg_left h hp0
    unfold compensated
    refine Int.le_ediv_of_mul_le hd ?_
    omega

end Sys2Proof.Machine
end

section
/-! PROOF. What the walk of bay `b` leaves alone. `frame b s` is what the work of a step in bay `b` cannot move: all of the other
bays but what a grant of the manifold or the engine moves there, and of bay `b` the part that its life in the cell decides (its state,
owner, hold start, custody and results, and the drive's motion). -/

namespace Sys2Proof.Machine

/-! ## The frame -/

/-- The fields of a bay record that only a change of the bay's life moves. -/
def BayRecord.core (r : BayRecord) : BayRecord :=
  { BayRecord.reset with
    state := r.state, owner := r.owner, serial := r.serial, planNumber := r.planNumber, holdStart := r.holdStart,
    reportStatus := r.reportStatus, verdict := r.verdict, results := r.results }

/-- A bay record without what a grant of the manifold moves. -/
def BayRecord.ungranted (r : BayRecord) : BayRecord :=
  { r with phase := .none, lines := BayRecord.reset.lines }

/-- The fields of a Drive Link that its limits speak of; of the wind-down, whether there is one. -/
def DriveLink.core (d : DriveLink) : DriveLink :=
  { DriveLink.reset with
    x := d.x, target := d.target, enable := d.enable, jogTarget := d.jogTarget, missed := d.missed,
    windDown := if d.windDown = .none then .none else .over }

/-- A buffer without its state, which the engine may change. -/
def ListenBuffer.contents (x : ListenBuffer) : ListenBuffer := { x with state := .free }

def NoiseUnit.contents (n : NoiseUnit) : NoiseUnit := { n with a0 := n.a0.contents, a1 := n.a1.contents }

/-- What the work of a step in bay `b` leaves of a bay, `own` saying whether it is bay `b` itself. -/
def Bay.seen (own : Bool) (x : Bay) : Bay :=
  if own then
    { config := x.config, record := x.record.core, drive := x.drive.core, sensor := SensorLink.reset, noise := NoiseUnit.reset,
      leak := LeakUnit.reset }
  else { x with record := x.record.ungranted, noise := x.noise.contents, leak := LeakUnit.reset }

/-- A port without its notices. -/
def Port.unnoticed (p : Port) : Port := { p with notices := [], ntf := false }

structure Frame where
  cell : CellControl
  store : PlanStore
  reports : ReportQueue
  pending : List Instr
  bay : BayId → Bay
  port : PortId → Port

def frame (b : BayId) (s : State) : Frame :=
  { cell := s.cell, store := { s.store with common := commonReset }, reports := s.reports, pending := s.pending,
    bay := fun c => (s.bay c).seen (decide (c = b)), port := fun p => (s.port p).unnoticed }

/-! ## What a frame tells -/

theorem frame_own {b : BayId} {s t : State} (h : frame b t = frame b s) :
    (t.bay b).config = (s.bay b).config ∧ (t.record b).core = (s.record b).core ∧ (t.bay b).drive.core = (s.bay b).drive.core := by
  have hb : (t.bay b).seen (decide (b = b)) = (s.bay b).seen (decide (b = b)) := congrFun (congrArg Frame.bay h) b
  simp only [decide_true, Bay.seen, if_true, Bay.mk.injEq] at hb
  exact ⟨hb.1, hb.2.1, hb.2.2.1⟩

theorem frame_other {b c : BayId} {s t : State} (h : frame b t = frame b s) (hc : c ≠ b) :
    (t.bay c).config = (s.bay c).config ∧ (t.record c).ungranted = (s.record c).ungranted ∧ (t.bay c).drive = (s.bay c).drive ∧
      (t.bay c).sensor = (s.bay c).sensor ∧ (t.bay c).noise.contents = (s.bay c).noise.contents := by
  have hb : (t.bay c).seen (decide (c = b)) = (s.bay c).seen (decide (c = b)) := congrFun (congrArg Frame.bay h) c
  simp only [hc, decide_false, Bay.seen, Bool.false_eq_true, if_false, Bay.mk.injEq] at hb
  exact ⟨hb.1, hb.2.1, hb.2.2.1, hb.2.2.2.1, hb.2.2.2.2.1⟩

theorem BayRecord.core_of_ungranted {r q : BayRecord} (h : r.ungranted = q.ungranted) : r.core = q.core := by
  show r.ungranted.core = q.ungranted.core
  rw [h]

theorem frame_core {b : BayId} {s t : State} (h : frame b t = frame b s) (c : BayId) :
    (t.bay c).config = (s.bay c).config ∧ (t.record c).core = (s.record c).core ∧ (t.bay c).drive.core = (s.bay c).drive.core := by
  by_cases hc : c = b
  · subst hc; exact frame_own h
  · obtain ⟨hConfig, hRecord, hDrive, -, -⟩ := frame_other h hc
    exact ⟨hConfig, BayRecord.core_of_ungranted hRecord, by rw [hDrive]⟩

/-! ## Changes of one bay -/

theorem mapBay_frame {b c : BayId} {f : Bay → Bay} {s : State}
    (h : ((f (s.bay c)).seen (decide (c = b))) = (s.bay c).seen (decide (c = b))) : frame b (mapBay c f s) = frame b s := by
  have hBay : (frame b (mapBay c f s)).bay = (frame b s).bay := by
    funext e
    show ((mapBay c f s).bay e).seen (decide (e = b)) = (s.bay e).seen (decide (e = b))
    rw [mapBay_bay]
    split
    · next he => subst he; exact h
    · rfl
  simp only [frame, Frame.mk.injEq] at hBay ⊢
  exact ⟨rfl, rfl, rfl, rfl, hBay, rfl⟩

theorem mapBay_own_frame {b : BayId} {f : Bay → Bay} {s : State} (hConfig : (f (s.bay b)).config = (s.bay b).config)
    (hRecord : (f (s.bay b)).record.core = (s.bay b).record.core) (hDrive : (f (s.bay b)).drive.core = (s.bay b).drive.core) :
    frame b (mapBay b f s) = frame b s :=
  mapBay_frame (by simp [Bay.seen, hConfig, hRecord, hDrive])

/-- A change of the own record that leaves its core alone. -/
theorem mapRecord_frame (b : BayId) (f : BayRecord → BayRecord) (s : State) (h : ∀ r, (f r).core = r.core := by intros; rfl) :
    frame b (mapRecord b f s) = frame b s := mapBay_own_frame rfl (h _) rfl

/-- A change of the step phase and the lines of any bay. -/
theorem mapRecord_frame_any (b c : BayId) (f : BayRecord → BayRecord) (s : State)
    (h : ∀ r, (f r).ungranted = r.ungranted := by intros; rfl) : frame b (mapRecord c f s) = frame b s := by
  refine mapBay_frame ?_
  cases decide (c = b)
  · simp [Bay.seen, h]
  · simp [Bay.seen, BayRecord.core_of_ungranted (h _)]

theorem mapDrive_frame (b : BayId) (f : DriveLink → DriveLink) (s : State) (h : (f (s.bay b).drive).core = (s.bay b).drive.core) :
    frame b (mapDrive b f s) = frame b s := mapBay_own_frame rfl rfl h

@[simp] theorem mapSensor_frame (b : BayId) (f : SensorLink → SensorLink) (s : State) : frame b (mapSensor b f s) = frame b s :=
  mapBay_own_frame rfl rfl rfl

@[simp] theorem mapNoise_frame (b : BayId) (f : NoiseUnit → NoiseUnit) (s : State) : frame b (mapNoise b f s) = frame b s :=
  mapBay_own_frame rfl rfl rfl

@[simp] theorem mapBuf_frame (b : BayId) (k : BufId) (f : ListenBuffer → ListenBuffer) (s : State) :
    frame b (mapBuf b k f s) = frame b s := mapNoise_frame ..

@[simp] theorem mapLeak_frame (b c : BayId) (f : LeakUnit → LeakUnit) (s : State) : frame b (mapLeak c f s) = frame b s :=
  mapBay_frame (by cases decide (c = b) <;> rfl)

/-- The engine changes the state of a buffer of any bay. -/
theorem mapBuf_state_frame (b c : BayId) (k : BufId) (st : BufState) (s : State) :
    frame b (mapBuf c k (fun x => { x with state := st }) s) = frame b s :=
  mapBay_frame (by cases decide (c = b) <;> cases k <;> rfl)

/-! ## Changes of the shared blocks -/

theorem frame_congr {b : BayId} {s t : State} (hCell : t.cell = s.cell) (hStore : t.store = s.store) (hReports : t.reports = s.reports)
    (hPending : t.pending = s.pending) (hBays : t.bays = s.bays) (hPorts : ∀ p, (t.port p).unnoticed = (s.port p).unnoticed) :
    frame b t = frame b s := by
  simp only [frame, State.bay, hCell, hStore, hReports, hPending, hBays, hPorts]

@[simp] theorem manifold_frame (b : BayId) (m : ManifoldArbiter) (s : State) : frame b { s with manifold := m } = frame b s := rfl

@[simp] theorem reducer_frame (b : BayId) (r : OrderReducer) (s : State) : frame b { s with reducer := r } = frame b s := rfl

theorem Port.offer_unnoticed (n : Notice) (p : Port) : (p.offer n).unnoticed = p.unnoticed := by
  unfold Port.offer
  split <;> rfl

@[simp] theorem raise_frame (b : BayId) (n : Notice) (s : State) : frame b (raise n s) = frame b s :=
  frame_congr rfl rfl rfl rfl rfl fun p => by rw [raise_port, Port.offer_unnoticed]

/-! ## The shared operations -/

@[simp] theorem setPhase_frame (b : BayId) (ph : StepPhase) (s : State) : frame b (setPhase b ph s) = frame b s := mapRecord_frame ..

@[simp] theorem refreshLines_frame (b c : BayId) (s : State) : frame b (refreshLines c s) = frame b s := by
  simp only [refreshLines]
  split
  · exact mapRecord_frame_any ..
  · rfl

@[simp] theorem setFill_frame (b c : BayId) (v : Bool) (s : State) : frame b (setFill c v s) = frame b s := mapRecord_frame_any ..

@[simp] theorem enterLeakPhase_frame (b c : BayId) (ph : LeakPhase) (start : Option Time) (s : State) :
    frame b (enterLeakPhase c ph start s) = frame b s := by
  simp only [enterLeakPhase, refreshLines_frame]
  exact (mapRecord_frame_any ..).trans (mapLeak_frame ..)

@[simp] theorem enterFill_frame (b c : BayId) (s : State) : frame b (enterFill c s) = frame b s := by
  simp [enterFill]

@[simp] theorem grantHead_frame (b : BayId) (s : State) : frame b (grantHead s) = frame b s := by
  unfold grantHead
  split <;> simp

@[simp] theorem requestManifold_frame (b c : BayId) (s : State) : frame b (requestManifold c s) = frame b s := by
  simp [requestManifold]

@[simp] theorem releaseManifold_frame (b c : BayId) (s : State) : frame b (releaseManifold c s) = frame b s := by
  unfold releaseManifold
  split <;> simp

@[simp] theorem endLeak_frame (b c : BayId) (s : State) : frame b (endLeak c s) = frame b s := by
  simp only [endLeak, withdrawManifold, releaseManifold_frame]
  exact (manifold_frame ..).trans (mapLeak_frame ..)

@[simp] theorem engineTake_frame (b : BayId) (s : State) : frame b (engineTake s) = frame b s := by
  unfold engineTake
  split
  · rw [mapBuf_state_frame, reducer_frame]
  · rfl

@[simp] theorem joinReducer_frame (b : BayId) (k : BufId) (s : State) : frame b (joinReducer b k s) = frame b s := by
  simp only [joinReducer, reducer_frame]
  exact (mapRecord_frame ..).trans (mapBuf_frame ..)

@[simp] theorem freeReduced_frame (j : EngineJob) (s : State) : frame j.bay (freeReduced j s) = frame j.bay s := by
  simp only [freeReduced, reducer_frame]
  exact (mapRecord_frame ..).trans (mapBuf_frame ..)

@[simp] theorem cancelBuffer_frame (b : BayId) (k : BufId) (s : State) : frame b (cancelBuffer b k s) = frame b s := by
  unfold cancelBuffer
  split
  · simp only [reducer_frame]
    exact (mapRecord_frame ..).trans (mapBuf_frame ..)
  · exact mapBuf_frame ..
  · rfl

@[simp] theorem cancelReductions_frame (b : BayId) (s : State) : frame b (cancelReductions b s) = frame b s := by
  simp [cancelReductions]

@[simp] theorem stopAcquisition_frame (b : BayId) (s : State) : frame b (stopAcquisition b s) = frame b s := mapNoise_frame ..

/-! ## Moves -/

/-- Entry into CLOSING before its wind-down is examined (R67). -/
def beginClosing (b : BayId) (s : State) : State :=
  refreshLines b (startWindDown b (setBayState b .closing (mapRecord b (fun r =>
    { r with phase := .none, holdRequest := false, holdPoint := none, latched := none, startTemperature := none }) s)))

theorem enterClosing_eq (b : BayId) (s : State) : enterClosing b s = examineEnding b (beginClosing b s) := rfl

/-- Entry into ABORTING before its wind-down is examined (R20, R70). -/
def beginAborting (b : BayId) (cause : Cause) (s : State) : State :=
  let t := mapDrive b (fun d => { d with dwell := none }) (stopAcquisition b (endLeak b (cancelReductions b
    (raise (if cause.isCommand then .aborted b else .fault b) (setBayState b .aborting (mapRecord b (fun r => { r with
      cause := some cause, holdRequest := false, endRequest := false, phase := .none, holdPoint := none, latched := none,
      startTemperature := none }) s))))))
  refreshLines b (if (s.record b).state = .closing then t else startWindDown b t)

theorem enterAborting_eq (b : BayId) (cause : Cause) (s : State) :
    enterAborting b cause s = examineEnding b (beginAborting b cause s) := by
  unfold enterAborting beginAborting
  rfl

/-- A verdict by which a report tells of a completed CLOSING (R68). -/
def FinalVerdict.graded (v : FinalVerdict) : Prop := v = .pass ∨ v = .marginal ∨ v = .incomplete ∨ v = .fail

/-- A HANDOVER's start of a plan before its first boundary (R12). -/
def beginPlan (b : BayId) (v : VariantEntry) (s : State) : State :=
  refreshLines b (mapDrive b (fun d => { d with enable := true, target := 0, x := 0 })
    (mapSensor b (fun l => { l with lossWatch := some LossWatch.started })
      (setBayState b .running (setOwner b .sequencer (mapRecord b (fun r =>
        { r with planNumber := some v.plan, planVersion := some (s.store.entry v.plan).version, slot := (s.store.entry v.plan).head })
        (takeReference v.plan s))))))

/-- A held bay runs again, before the boundary of its hold point (R56). -/
def beginResume (b : BayId) (s : State) : State :=
  setBayState b .running (mapRecord b (fun r => { r with holdStart := none, holdPoint := none, holdRequest := false }) s)

/-- An axle is presented (R10). -/
def loadAxle (b : BayId) (serial : List Byte) (code : Nat) (s : State) : State :=
  setBayState b .loaded (mapRecord b (fun r => { r.cleared with serial := some serial, variantCode := code }) s)

/-- What an event or a command of bay `b` is made of, as far as the frame goes. With `g` what the step phases say of the bay's state is
recorded, and with `d` that a change of the drive keeps its limits. -/
inductive Move (b : BayId) (g d : Prop) : State → State → Prop where
  | still {s t : State} (h : frame b t = frame b s) : Move b g d s t
  | drive (f : DriveLink → DriveLink) (s : State)
      (h : g → d → ownerAdmitted (s.record b).state (s.record b).owner = true →
        (s.bay b).drive.Ok (s.bay b).config.speedLimit (s.record b).owner (s.record b).state →
        (f (s.bay b).drive).Ok (s.bay b).config.speedLimit (s.record b).owner (s.record b).state) :
      Move b g d s (mapDrive b f s)
  | config (c : BayConfig) (s : State) (hState : (s.record b).state = .empty ∧ (s.record b).owner = .line) (hOk : c.Ok) :
      Move b g d s (mapBay b (fun x => { x with config := c }) s)
  | manual (s : State) (hState : (s.record b).state = .empty ∨ (s.record b).state = .loaded) (hOwner : (s.record b).owner = .line) :
      Move b g d s (setOwner b .cell s)
  | unmanned (s : State) (hOwner : (s.record b).owner = .cell) (hJog : (s.bay b).drive.jogTarget = 0) :
      Move b g d s (setOwner b .line (mapDrive b DriveLink.halt s))
  | load (serial : List Byte) (code : Nat) (s : State) (hState : (s.record b).state = .empty) (hOwner : (s.record b).owner ≠ .cell)
      (hSerial : 1 ≤ serial.length ∧ serial.length ≤ 20) : Move b g d s (loadAxle b serial code s)
  | start (v : VariantEntry) (s : State) (hState : (s.record b).state = .loaded) (hOwner : (s.record b).owner ≠ .cell)
      (hCell : s.cell.state = .running) (hVariant : v ∈ s.store.variants) : Move b g d s (beginPlan b v s)
  | divert (cause : Cause) (s : State) (hState : (s.record b).state = .loaded) (hOwner : (s.record b).owner ≠ .cell) :
      Move b g d s (divertBay b cause s)
  | post (res : Result) (s : State) : Move b g d s (postResult b res s)
  | held (point : HoldPoint) (s : State) (hState : g → (s.record b).state = .running) : Move b g d s (enterHeld b point s)
  | resume (s : State) (hState : (s.record b).state = .held) : Move b g d s (beginResume b s)
  | closing (s : State) (hState : g → (s.record b).state = .running) : Move b g d s (beginClosing b s)
  | aborting (cause : Cause) (s : State) (hState : (s.record b).state.abortable) : Move b g d s (beginAborting b cause s)
  | finish (v : FinalVerdict) (s : State) (hState : (s.record b).state = .closing ∨ (s.record b).state = .aborting)
      (hVerdict : v.graded → v = closingVerdict (worstOf (s.record b).results)) : Move b g d s (finishBay b v s)
  | release (s : State) (hState : (s.record b).state = .finished) (hReport : (s.record b).reportStatus = .committed) :
      Move b g d s (setBayState b .unloading s)
  | clear (s : State) (hState : (s.record b).state = .unloading) : Move b g d s (enterEmpty b s)

/-- A run of moves. -/
abbrev Moves (b : BayId) (g d : Prop) : State → State → Prop := Relation.ReflTransGen (Move b g d)

section Moves
variable {b : BayId} {g d : Prop}

theorem Move.run {s t : State} (h : Move b g d s t) : Moves b g d s t := .single h

theorem Moves.of_frame {s t : State} (h : frame b t = frame b s) : Moves b g d s t := (Move.still h).run

theorem Moves.trans {s t u : State} (h : Moves b g d s t) (h' : Moves b g d t u) : Moves b g d s u := Relation.ReflTransGen.trans h h'

/-- A run of moves between states that differ from its ends outside the frame alone. -/
theorem Moves.then_frame {s t u : State} (h : Moves b g d s t) (hu : frame b u = frame b t) : Moves b g d s u := h.trans (.of_frame hu)

theorem Moves.keep {P : State → Prop} (hP : ∀ s t, Move b g d s t → P s → P t) {s t : State} (h : Moves b g d s t) (hs : P s) : P t := by
  induction h with
  | refl => exact hs
  | tail _ hc ih => exact hP _ _ hc ih

theorem state_of_frame {s t : State} (h : frame b t = frame b s) (c : BayId) : (t.record c).state = (s.record c).state := by
  show (t.record c).core.state = (s.record c).core.state
  rw [(frame_core h c).2.1]

theorem postResult_moves (res : Result) (s : State) : Moves b g d s (postResult b res s) := (Move.post res s).run

@[simp] theorem postResult_state (b c : BayId) (res : Result) (s : State) : ((postResult b res s).record c).state = (s.record c).state := by
  unfold postResult
  split
  · rw [mapRecord_recordOf]; split <;> rfl
  · rfl

theorem postLeak_moves (v : Verdict) (cause : Option Cause) (value1 value2 : Int) (s : State) :
    Moves b g d s (postLeak b v cause value1 value2 s) := by
  unfold postLeak
  split
  · exact .refl
  · exact (postResult_moves ..).then_frame (mapLeak_frame ..)

theorem enterVent_moves (s : State) : Moves b g d s (enterVent b s) := .of_frame (enterLeakPhase_frame ..)

theorem enterMeasure_moves (s : State) : Moves b g d s (enterMeasure b s) := by
  simp only [enterMeasure]
  split
  · exact .of_frame (by simp)
  · exact ((Moves.of_frame (enterLeakPhase_frame ..)).trans (postLeak_moves ..)).trans (enterVent_moves _)

theorem enterSettle_moves (s : State) : Moves b g d s (enterSettle b s) := by
  simp only [enterSettle]
  split
  · exact (Moves.of_frame (enterLeakPhase_frame ..)).trans (enterMeasure_moves _)
  · exact .of_frame (enterLeakPhase_frame ..)

@[simp] theorem askAmbient_frame (b c : BayId) (s : State) : frame b (askAmbient c s) = frame b s := by
  simp only [askAmbient]
  split
  · simp [enterFillWait]
  · rfl

@[simp] theorem enterAmbient_frame (b c : BayId) (o : LeakOps) (s : State) : frame b (enterAmbient c o s) = frame b s := by
  simp [enterAmbient]

theorem fillSample_moves (p : Int) (s : State) : Moves b g d s (fillSample b p s) := by
  simp only [fillSample]
  split
  · exact (Moves.of_frame (by simp)).trans (enterSettle_moves _)
  · exact .of_frame (mapLeak_frame ..)

theorem endMeasure_moves (p1 t1 : Int) (s : State) : Moves b g d s (endMeasure b p1 t1 s) := by
  simp only [endMeasure, computeLeak]
  split
  · split
    · exact ((Moves.of_frame (mapLeak_frame ..)).trans (postLeak_moves ..)).trans (enterVent_moves _)
    · split
      · exact (Moves.of_frame (mapLeak_frame ..)).trans (enterSettle_moves _)
      · exact (postLeak_moves ..).trans (enterVent_moves _)
  · exact (postLeak_moves ..).trans (enterVent_moves _)

theorem failFill_moves (s : State) : Moves b g d s (failFill b s) :=
  ((Moves.of_frame (releaseManifold_frame ..)).trans (postLeak_moves ..)).trans (enterVent_moves _)

/-! ## Leaving a plan -/

theorem abortVerdict_not_graded (cause secondary : Option Cause) : ¬(abortVerdict cause secondary).graded := by
  unfold abortVerdict FinalVerdict.graded
  split
  · split <;> simp
  · simp

theorem settleEnding_moves (s : State) : Moves b g d s (settleEnding b s) := by
  unfold settleEnding
  split
  · split
    · next h => exact (Move.finish _ s (.inr h) fun hv => (abortVerdict_not_graded _ _ hv).elim).run
    · next h =>
      split
      · exact (Move.finish _ s (.inl h) fun _ => rfl).run
      · exact .refl
    · exact .refl
  · exact .refl

theorem examineWindDown_core (d : DriveLink) : d.examineWindDown.core = d.core := by
  unfold DriveLink.examineWindDown
  split
  · next h =>
    split
    · simp [DriveLink.core, h]
    · rfl
  · rfl

theorem examineEnding_moves (s : State) : Moves b g d s (examineEnding b s) :=
  (Moves.of_frame (mapDrive_frame _ _ _ (examineWindDown_core _))).trans (settleEnding_moves _)

theorem enterClosing_moves (s : State) (h : g → (s.record b).state = .running) : Moves b g d s (enterClosing b s) :=
  (Move.closing s h).run.trans (examineEnding_moves _)

theorem enterAborting_moves (cause : Cause) (s : State) (h : (s.record b).state.abortable) :
    Moves b g d s (enterAborting b cause s) := by
  rw [enterAborting_eq]
  exact (Move.aborting cause s h).run.trans (examineEnding_moves _)

theorem recordSecondary_frame (b : BayId) (f : Cause) (s : State) : frame b (recordSecondary b f s) = frame b s := mapRecord_frame ..

theorem takeFault_moves (f : Cause) (s : State) : Moves b g d s (takeFault b f s) := by
  unfold takeFault
  split
  · next h => exact enterAborting_moves f s (.inl h)
  · next h => exact enterAborting_moves f s (.inr (.inl h))
  · next h => exact enterAborting_moves f s (.inr (.inr h))
  · exact .of_frame (recordSecondary_frame ..)
  · exact .refl

/-! ## Walking a plan -/

theorem skipTest_frame (b : BayId) (rec : StepRecord) (s : State) : frame b (skipTest b rec s).2 = frame b s := by
  unfold skipTest
  split
  · refine (mapRecord_frame ..).trans ?_
    obtain ⟨hVariants, hSlots, hDirectory⟩ := auditDecrement_fields s.store (rec.auditCell.getD 56)
    simp only [frame, hVariants, hSlots, hDirectory]
    rfl
  · rfl

/-- Under the sequencer a target within the speed limit keeps the drive's limits. -/
theorem DriveLink.Ok.retarget {dl : DriveLink} {limit : Nat} {o : Owner} {st : BayState} {v : Int} {rate torque : Nat}
    (h : dl.Ok limit o st) (ho : o = .sequencer) (hv : v.natAbs ≤ limit) :
    ({ dl with target := v, rampRate := rate, torqueLimit := torque } : DriveLink).Ok limit o st := by
  subst ho
  exact ⟨hv, h.setpoint, nofun, h.sequencer, nofun, h.jog, h.missed, h.winding⟩

theorem startRamp_moves (o : RampOps) (s : State) (h : g → (s.record b).state = .running)
    (hLimit : o.target.natAbs ≤ (s.bay b).config.speedLimit) : Moves b g d s (startRamp b o s).2 := by
  have hTarget : Moves b g d s (mapDrive b (fun d => { d with
      target := o.target, rampRate := o.rate.toNat, torqueLimit := o.torque.toNat }) s) := by
    refine (Move.drive _ s fun hg _ hOwner hd => ?_).run
    rw [h hg] at hOwner hd ⊢
    exact hd.retarget (by simpa [ownerAdmitted] using hOwner) hLimit
  simp only [startRamp]
  split
  · exact hTarget
  · split
    · exact hTarget.then_frame (setPhase_frame ..)
    · exact hTarget.then_frame (setPhase_frame ..)

theorem startDwell_frame (b : BayId) (o : DwellOps) (s : State) : frame b (startDwell b o s).2 = frame b s := by
  simp only [startDwell, setPhase_frame]
  refine (mapRecord_frame ..).trans ?_
  split
  · exact mapDrive_frame _ _ _ rfl
  · rfl

theorem startListen_moves (o : ListenOps) (s : State) : Moves b g d s (startListen b o s).2 := by
  simp only [startListen]
  split
  · exact .of_frame (setPhase_frame ..)
  · split
    · exact postResult_moves ..
    · exact .of_frame (by simp)

theorem startLeak_moves (o : LeakOps) (s : State) : Moves b g d s (startLeak b o s).2 := by
  simp only [startLeak]
  split
  · exact postResult_moves ..
  · split
    · exact postResult_moves ..
    · exact .of_frame (enterAmbient_frame ..)

/-- A RAMP target within the speed limit of bay `b`; other operands have none. -/
def Operands.withinLimit (limit : Nat) : Operands → Prop
  | .ramp o => o.target.natAbs ≤ limit
  | .dwell _ | .listen _ | .leak _ => True

theorem operandsOf_withinLimit (limit : Nat) (kind : StepKind) (vs : List Int) :
    (operandsOf kind (clampOperands (operandRanges limit kind) vs)).withinLimit limit := by
  cases kind with
  | ramp =>
    cases vs with
    | nil => simp [operandsOf, clampOperands, Operands.withinLimit]
    | cons v vs =>
      have hv := clamp_bounds (lo := -(limit : Int)) (hi := limit) v (by omega)
      simp only [operandsOf, clampOperands, operandRanges, Operands.withinLimit, List.zipWith_cons_cons, List.getD_cons_zero]
      omega
  | dwell => trivial
  | listen => trivial
  | leak => trivial

theorem startWork_moves (ops : Operands) (s : State) (h : g → (s.record b).state = .running)
    (hLimit : ops.withinLimit (s.bay b).config.speedLimit) : Moves b g d s (startWork b ops s).2 := by
  cases ops with
  | ramp o => exact startRamp_moves o s h hLimit
  | dwell o => exact .of_frame (startDwell_frame ..)
  | listen o => exact startListen_moves o s
  | leak o => exact startLeak_moves o s

theorem beginStep_moves (rec : StepRecord) (s : State) (h : g → (s.record b).state = .running) :
    Moves b g d s (beginStep b rec s).2 := by
  simp only [beginStep]
  split
  · exact takeFault_moves ..
  · next vs _ =>
    split
    · exact (Moves.of_frame (mapRecord_frame ..)).trans (postResult_moves ..)
    · refine ((Moves.of_frame (mapRecord_frame ..)).then_frame (mapRecord_frame ..)).trans (startWork_moves _ _ (by simpa using h) ?_)
      simpa using operandsOf_withinLimit (s.bay b).config.speedLimit rec.kind vs

theorem enterStep_moves (k : Nat) (rec : StepRecord) (s : State) (h : g → (s.record b).state = .running) :
    Moves b g d s (enterStep b k rec s).2 := by
  have hSlot : frame b (mapRecord b (fun r => { r with slot := some k, phase := .none }) s) = frame b s := mapRecord_frame ..
  simp only [enterStep]
  split
  · exact (Moves.of_frame hSlot).then_frame (setPhase_frame ..)
  · have hTest := (skipTest_frame b rec _).trans hSlot
    split
    · exact (Moves.of_frame hTest).trans (beginStep_moves rec _ fun hg => (state_of_frame hTest b).trans (h hg))
    · exact .of_frame hTest

/-! ### A step that is over at once leaves the bay in its state -/

theorem startWork_over {ops : Operands} {s : State} (h : (startWork b ops s).1 = true) (c : BayId) :
    ((startWork b ops s).2.record c).state = (s.record c).state := by
  cases ops with
  | ramp o =>
    simp only [startWork, startRamp] at h ⊢
    split at h
    · next hd => rw [if_pos hd, mapDrive_recordOf]
    · split at h <;> cases h
  | dwell o => cases h
  | listen o =>
    simp only [startWork, startListen] at h ⊢
    split at h
    · cases h
    · split at h
      · next hx => simp [hx]
      · cases h
  | leak o =>
    simp only [startWork, startLeak] at h ⊢
    split at h
    · next hx => simp [hx]
    · next hx =>
      split at h
      · next hy => simp [hx, hy]
      · cases h

theorem beginStep_over {rec : StepRecord} {s : State} (h : (beginStep b rec s).1 = true) (c : BayId) :
    ((beginStep b rec s).2.record c).state = (s.record c).state := by
  simp only [beginStep] at h ⊢
  split at h
  · cases h
  · split at h
    · simp [mapRecord_recordOf, apply_ite BayRecord.state]
    · rw [startWork_over h, mapRecord_recordOf, mapRecord_recordOf]
      split <;> rfl

theorem enterStep_over {k : Nat} {rec : StepRecord} {s : State} (h : (enterStep b k rec s).1 = true) (c : BayId) :
    ((enterStep b k rec s).2.record c).state = (s.record c).state := by
  have hTest := (skipTest_frame b rec (mapRecord b (fun r => { r with slot := some k, phase := .none }) s)).trans (mapRecord_frame ..)
  simp only [enterStep] at h ⊢
  split at h
  · cases h
  · next hw =>
    rw [if_neg hw]
    split at h
    · next hr => rw [if_pos hr, beginStep_over h, state_of_frame hTest]
    · next hr => rw [if_neg hr, state_of_frame hTest]

theorem walk_moves (fuel link : Nat) (s : State) (h : g → (s.record b).state = .running) : Moves b g d s (walk fuel b link s) := by
  induction fuel generalizing link s with
  | zero => exact enterClosing_moves s h
  | succ n ih =>
    simp only [walk]
    split
    · exact enterClosing_moves s h
    split
    · exact (Move.held .after s h).run
    split
    · exact enterClosing_moves s h
    split
    · exact enterClosing_moves s h
    split
    · next hOver =>
      refine ((enterStep_moves _ _ s h).then_frame (mapRecord_frame ..)).trans (ih _ _ fun hg => ?_)
      simpa [enterStep_over hOver] using h hg
    · exact enterStep_moves _ _ s h

theorem boundary_moves (link : Nat) (s : State) (h : g → (s.record b).state = .running) : Moves b g d s (boundary b link s) :=
  walk_moves _ _ _ h

theorem endStep_moves (s : State) (h : g → (s.record b).state = .running) : Moves b g d s (endStep b s) :=
  (Moves.of_frame (mapRecord_frame ..)).trans (boundary_moves _ _ (by simpa using h))

theorem startListen_state (o : ListenOps) (s : State) (c : BayId) : ((startListen b o s).2.record c).state = (s.record c).state := by
  simp only [startListen]
  split
  · exact state_of_frame (setPhase_frame ..) c
  · split
    · exact postResult_state ..
    · exact state_of_frame (b := b) (by simp) c

theorem wakeBay_moves (s : State) : Moves b g d s (wakeBay b s) := by
  simp only [wakeBay]
  split
  · exact settleEnding_moves s
  · next h =>
    split
    · split
      · next o _ =>
        unfold afterStart
        split
        · exact (startListen_moves o s).trans (endStep_moves _ fun _ => (startListen_state o s b).trans h)
        · exact startListen_moves o s
      · exact .refl
    · split
      · exact boundary_moves _ _ fun _ => h
      · exact .refl
  · exact .refl

/-- The phases of a bay agree with its state: a phase stands only in RUNNING. -/
def PhaseRuns (b : BayId) (s : State) : Prop := (s.record b).phase ≠ .none → (s.record b).state = .running

theorem examineRamp_moves (s : State) (h : g → PhaseRuns b s) : Moves b g d s (examineRamp b s) := by
  simp only [examineRamp]
  split
  · next hPhase =>
    split
    · split
      · exact endStep_moves s fun hg => h hg (by rcases hPhase with e | e <;> simp [e])
      · split
        · exact .of_frame (setPhase_frame ..)
        · exact .refl
    · exact .refl
  · exact .refl

end Moves

end Sys2Proof.Machine
end

section
/-! PROOF. What the manifold, the lines and the noise check give a bay, and what an abort leaves (R25, R118, R123, R124, R130 to R134,
R150). -/

namespace Sys2Proof.Machine

/-! ## Work that moves nothing but bays and the manifold -/

/-- A state without its bays and its manifold. -/
def State.rest (s : State) : State := { s with bays := Bays.reset, manifold := ⟨none, []⟩ }

theorem State.rest_eq_iff {s t : State} : t.rest = s.rest ↔ t.cell = s.cell ∧ t.store = s.store ∧ t.reducer = s.reducer ∧
    t.reports = s.reports ∧ t.ports = s.ports ∧ t.pending = s.pending := by
  simp only [State.rest, State.mk.injEq, true_and]

@[simp] theorem mapBay_rest (b : BayId) (f : Bay → Bay) (s : State) : (mapBay b f s).rest = s.rest := rfl
@[simp] theorem mapRecord_rest (b : BayId) (f : BayRecord → BayRecord) (s : State) : (mapRecord b f s).rest = s.rest := rfl
@[simp] theorem mapDrive_rest (b : BayId) (f : DriveLink → DriveLink) (s : State) : (mapDrive b f s).rest = s.rest := rfl
@[simp] theorem mapSensor_rest (b : BayId) (f : SensorLink → SensorLink) (s : State) : (mapSensor b f s).rest = s.rest := rfl
@[simp] theorem mapNoise_rest (b : BayId) (f : NoiseUnit → NoiseUnit) (s : State) : (mapNoise b f s).rest = s.rest := rfl
@[simp] theorem mapBuf_rest (b : BayId) (k : BufId) (f : ListenBuffer → ListenBuffer) (s : State) : (mapBuf b k f s).rest = s.rest := rfl
@[simp] theorem mapLeak_rest (b : BayId) (f : LeakUnit → LeakUnit) (s : State) : (mapLeak b f s).rest = s.rest := rfl
@[simp] theorem manifold_rest (m : ManifoldArbiter) (s : State) : State.rest { s with manifold := m } = s.rest := rfl
@[simp] theorem setFill_rest (b : BayId) (v : Bool) (s : State) : (setFill b v s).rest = s.rest := rfl
@[simp] theorem setPhase_rest (b : BayId) (ph : StepPhase) (s : State) : (setPhase b ph s).rest = s.rest := rfl
@[simp] theorem startWindDown_rest (b : BayId) (s : State) : (startWindDown b s).rest = s.rest := rfl

@[simp] theorem refreshLines_rest (b : BayId) (s : State) : (refreshLines b s).rest = s.rest := by
  simp only [refreshLines]; split <;> rfl

@[simp] theorem postResult_rest (b : BayId) (res : Result) (s : State) : (postResult b res s).rest = s.rest := by
  unfold postResult; split <;> rfl

@[simp] theorem enterLeakPhase_rest (b : BayId) (ph : LeakPhase) (start : Option Time) (s : State) :
    (enterLeakPhase b ph start s).rest = s.rest := by
  simp [enterLeakPhase]

@[simp] theorem enterFill_rest (b : BayId) (s : State) : (enterFill b s).rest = s.rest := by simp [enterFill]

@[simp] theorem grantHead_rest (s : State) : (grantHead s).rest = s.rest := by
  unfold grantHead; split <;> simp

@[simp] theorem requestManifold_rest (b : BayId) (s : State) : (requestManifold b s).rest = s.rest := by simp [requestManifold]

@[simp] theorem releaseManifold_rest (b : BayId) (s : State) : (releaseManifold b s).rest = s.rest := by
  unfold releaseManifold; split <;> simp

@[simp] theorem endLeak_rest (b : BayId) (s : State) : (endLeak b s).rest = s.rest := by
  simp only [endLeak, withdrawManifold, releaseManifold_rest]; rfl

@[simp] theorem postLeak_rest (b : BayId) (v : Verdict) (cause : Option Cause) (value1 value2 : Int) (s : State) :
    (postLeak b v cause value1 value2 s).rest = s.rest := by
  unfold postLeak; split <;> simp

@[simp] theorem enterVent_rest (b : BayId) (s : State) : (enterVent b s).rest = s.rest := enterLeakPhase_rest ..

@[simp] theorem enterMeasure_rest (b : BayId) (s : State) : (enterMeasure b s).rest = s.rest := by
  simp only [enterMeasure]; split <;> simp

@[simp] theorem enterSettle_rest (b : BayId) (s : State) : (enterSettle b s).rest = s.rest := by
  simp only [enterSettle]; split <;> simp

@[simp] theorem askAmbient_rest (b : BayId) (s : State) : (askAmbient b s).rest = s.rest := by
  simp only [askAmbient, enterFillWait]; split <;> simp

@[simp] theorem enterAmbient_rest (b : BayId) (o : LeakOps) (s : State) : (enterAmbient b o s).rest = s.rest := by
  simp [enterAmbient]

@[simp] theorem fillSample_rest (b : BayId) (p : Int) (s : State) : (fillSample b p s).rest = s.rest := by
  simp only [fillSample]; split <;> simp

@[simp] theorem endMeasure_rest (b : BayId) (p1 t1 : Int) (s : State) : (endMeasure b p1 t1 s).rest = s.rest := by
  simp only [endMeasure, computeLeak]; split <;> [split <;> [skip; split]; skip] <;> simp

@[simp] theorem failFill_rest (b : BayId) (s : State) : (failFill b s).rest = s.rest := by
  simp [failFill]

/-! ## Lines (R25) -/

theorem refreshLines_bay_other {b c : BayId} (s : State) (h : c ≠ b) : (refreshLines b s).bay c = s.bay c := by
  simp only [refreshLines]
  split
  · exact mapRecord_bay_other _ s h
  · rfl

/-- A refresh moves the lines alone of a bay under the sequencer, and no other bay. -/
theorem refreshLines_bay_same (b : BayId) (s : State) : (refreshLines b s).bay b = { s.bay b with record := { s.record b with
    lines := if (s.record b).owner = .sequencer then
      sequencerLines (s.bay b).config.map (s.record b).state (s.bay b).leak.phase (s.record b).lines else (s.record b).lines } } := by
  simp only [refreshLines]
  by_cases h : (s.bay b).record.owner = .sequencer
  · simp [State.record, h]
  · simp [State.record, h]

@[simp] theorem refreshLines_manifold (b : BayId) (s : State) : (refreshLines b s).manifold = s.manifold := by
  simp only [refreshLines]; split <;> rfl

theorem refreshLines_record (b : BayId) (s : State) : (refreshLines b s).record b = { s.record b with
    lines := if (s.record b).owner = .sequencer then
      sequencerLines (s.bay b).config.map (s.record b).state (s.bay b).leak.phase (s.record b).lines else (s.record b).lines } :=
  congrArg Bay.record (refreshLines_bay_same b s)

@[simp] theorem refreshLines_config (b c : BayId) (s : State) : ((refreshLines b s).bay c).config = (s.bay c).config := by
  simp only [refreshLines]; split <;> simp
@[simp] theorem refreshLines_drive (b c : BayId) (s : State) : ((refreshLines b s).bay c).drive = (s.bay c).drive := by
  simp only [refreshLines]; split <;> simp
@[simp] theorem refreshLines_sensor (b c : BayId) (s : State) : ((refreshLines b s).bay c).sensor = (s.bay c).sensor := by
  simp only [refreshLines]; split <;> simp
@[simp] theorem refreshLines_noise (b c : BayId) (s : State) : ((refreshLines b s).bay c).noise = (s.bay c).noise := by
  simp only [refreshLines]; split <;> simp
@[simp] theorem refreshLines_leak (b c : BayId) (s : State) : ((refreshLines b s).bay c).leak = (s.bay c).leak := by
  simp only [refreshLines]; split <;> simp

/-! ## Leak phases -/

theorem enterLeakPhase_bay_other {b c : BayId} (ph : LeakPhase) (start : Option Time) (s : State) (h : c ≠ b) :
    (enterLeakPhase b ph start s).bay c = s.bay c := by
  simp only [enterLeakPhase]
  rw [refreshLines_bay_other _ h, mapRecord_bay_other _ _ h, mapLeak_bay_other _ _ h]

@[simp] theorem enterLeakPhase_manifold (b : BayId) (ph : LeakPhase) (start : Option Time) (s : State) :
    (enterLeakPhase b ph start s).manifold = s.manifold := by
  simp [enterLeakPhase]

/-- The bay after its unit has entered a phase: unit, step phase and lines. -/
theorem enterLeakPhase_bay_same (b : BayId) (ph : LeakPhase) (start : Option Time) (s : State) :
    (enterLeakPhase b ph start s).bay b = { s.bay b with
      leak := { (s.bay b).leak with phase := ph, phaseStart := start, startMeans := none }
      record := { s.record b with
        phase := ph.step
        lines := if (s.record b).owner = .sequencer then
          sequencerLines (s.bay b).config.map (s.record b).state ph (s.record b).lines else (s.record b).lines } } := by
  simp only [enterLeakPhase]
  rw [refreshLines_bay_same]
  simp only [mapRecord_recordOf_same, mapRecord_bay_same, mapLeak_bay_same, mapLeak_recordOf]

@[simp] theorem enterLeakPhase_config (b c : BayId) (ph : LeakPhase) (start : Option Time) (s : State) :
    ((enterLeakPhase b ph start s).bay c).config = (s.bay c).config := by simp [enterLeakPhase]
@[simp] theorem enterLeakPhase_drive (b c : BayId) (ph : LeakPhase) (start : Option Time) (s : State) :
    ((enterLeakPhase b ph start s).bay c).drive = (s.bay c).drive := by simp [enterLeakPhase]
@[simp] theorem enterLeakPhase_sensor (b c : BayId) (ph : LeakPhase) (start : Option Time) (s : State) :
    ((enterLeakPhase b ph start s).bay c).sensor = (s.bay c).sensor := by simp [enterLeakPhase]
@[simp] theorem enterLeakPhase_noise (b c : BayId) (ph : LeakPhase) (start : Option Time) (s : State) :
    ((enterLeakPhase b ph start s).bay c).noise = (s.bay c).noise := by simp [enterLeakPhase]

/-! ## The grant (R132, R139) -/

/-- The bay that a grant would go to: the head of the queue of a FREE manifold. -/
def nextHolder (s : State) : Option BayId := if s.manifold.granted = none then s.manifold.queue.head? else none

theorem grantHead_of_none {s : State} (h : nextHolder s = none) : grantHead s = s := by
  unfold grantHead
  split
  · next b rest hFree hHead => simp [nextHolder, hFree, hHead] at h
  · rfl

theorem grantHead_of_some {s : State} {b : BayId} (h : nextHolder s = some b) :
    grantHead s = enterFill b (setFill b true { s with manifold := ⟨some b, s.manifold.queue.drop 1⟩ }) := by
  unfold grantHead
  unfold nextHolder at h
  split at h
  · next hFree =>
    cases hq : s.manifold.queue with
    | nil => simp [hq] at h
    | cons x xs =>
      have hx : x = b := by simpa [hq] using h
      subst hx
      simp [hFree]
  · cases h

theorem grantHead_bay_other {s : State} {c : BayId} (h : nextHolder s ≠ some c) : (grantHead s).bay c = s.bay c := by
  cases hn : nextHolder s with
  | none => rw [grantHead_of_none hn]
  | some b =>
    have hc : c ≠ b := fun e => h (by rw [hn, e])
    rw [grantHead_of_some hn, enterFill, enterLeakPhase_bay_other _ _ _ hc, mapLeak_bay_other _ _ hc, setFill, mapRecord_bay_other _ _ hc]
    rfl

theorem grantHead_manifold (s : State) : (grantHead s).manifold =
    match nextHolder s with
    | some b => ⟨some b, s.manifold.queue.drop 1⟩
    | none => s.manifold := by
  cases hn : nextHolder s with
  | none => rw [grantHead_of_none hn]
  | some b => rw [grantHead_of_some hn]; simp [enterFill]

/-- The bay that the manifold goes to fills: its FILL line, its unit and its step phase, and the lines that follow (R132, R139). -/
theorem grantHead_bay_same {s : State} {b : BayId} (h : nextHolder s = some b) : (grantHead s).bay b = { s.bay b with
    leak := { (s.bay b).leak with phase := .fill, phaseStart := some s.now, startMeans := none, highest := none }
    record := { s.record b with
      phase := .fill
      lines := if (s.record b).owner = .sequencer then
          sequencerLines (s.bay b).config.map (s.record b).state .fill { (s.record b).lines with fill := true }
        else { (s.record b).lines with fill := true } } } := by
  have hBay : (setFill b true { s with manifold := ⟨some b, s.manifold.queue.drop 1⟩ }).bay b =
      { s.bay b with record := { s.record b with lines := { (s.record b).lines with fill := true } } } := mapRecord_bay_same ..
  rw [grantHead_of_some h, enterFill, enterLeakPhase_bay_same]
  simp only [State.record, mapLeak_bay_same, hBay]
  rfl

/-- A grant leaves every bay's other blocks alone. -/
theorem grantHead_blocks (s : State) (c : BayId) : ((grantHead s).bay c).config = (s.bay c).config ∧
    ((grantHead s).bay c).drive = (s.bay c).drive ∧ ((grantHead s).bay c).sensor = (s.bay c).sensor ∧
    ((grantHead s).bay c).noise = (s.bay c).noise := by
  by_cases h : nextHolder s = some c
  · rw [grantHead_bay_same h]; exact ⟨rfl, rfl, rfl, rfl⟩
  · rw [grantHead_bay_other h]; exact ⟨rfl, rfl, rfl, rfl⟩

@[simp] theorem grantHead_config (s : State) (c : BayId) : ((grantHead s).bay c).config = (s.bay c).config := (grantHead_blocks s c).1
@[simp] theorem grantHead_drive (s : State) (c : BayId) : ((grantHead s).bay c).drive = (s.bay c).drive := (grantHead_blocks s c).2.1
@[simp] theorem grantHead_sensor (s : State) (c : BayId) : ((grantHead s).bay c).sensor = (s.bay c).sensor := (grantHead_blocks s c).2.2.1
@[simp] theorem grantHead_noise (s : State) (c : BayId) : ((grantHead s).bay c).noise = (s.bay c).noise := (grantHead_blocks s c).2.2.2

/-! ## Release and withdrawal (R133, R134) -/

/-- The holder gives the manifold up: its FILL line falls, before the next grant. -/
def freeManifold (b : BayId) (s : State) : State := setFill b false { s with manifold := { s.manifold with granted := none } }

theorem releaseManifold_holder {b : BayId} {s : State} (h : s.manifold.granted = some b) :
    releaseManifold b s = grantHead (freeManifold b s) := if_pos h

theorem releaseManifold_other {b : BayId} {s : State} (h : s.manifold.granted ≠ some b) : releaseManifold b s = s := if_neg h

theorem freeManifold_bay (b c : BayId) (s : State) : (freeManifold b s).bay c =
    if c = b then { s.bay c with record := { s.record c with lines := { (s.record c).lines with fill := false } } } else s.bay c := by
  unfold freeManifold setFill mapRecord
  rw [mapBay_bay]
  rfl

@[simp] theorem freeManifold_manifold (b : BayId) (s : State) : (freeManifold b s).manifold = ⟨none, s.manifold.queue⟩ := rfl
@[simp] theorem freeManifold_rest (b : BayId) (s : State) : (freeManifold b s).rest = s.rest := rfl

@[simp] theorem nextHolder_freeManifold (b : BayId) (s : State) : nextHolder (freeManifold b s) = s.manifold.queue.head? := by
  simp [nextHolder]

/-- A withdrawal by bay `b` takes it out of the manifold, lowers its FILL line when it held it, and changes nothing else of bay `b`. -/
theorem withdrawManifold_bay_same (b : BayId) (s : State) : (withdrawManifold b s).bay b = { s.bay b with
    record := { s.record b with lines := { (s.record b).lines with
      fill := if s.manifold.granted = some b then false else (s.record b).lines.fill } } } := by
  unfold withdrawManifold
  by_cases h : s.manifold.granted = some b
  · rw [releaseManifold_holder (by exact h), grantHead_bay_other, freeManifold_bay, if_pos rfl, if_pos h]
    · rfl
    · rw [nextHolder_freeManifold]
      intro hHead
      have := List.mem_of_mem_head? hHead
      simp at this
  · rw [releaseManifold_other (by exact h), if_neg h]
    rfl

theorem withdrawManifold_gone (b : BayId) (s : State) :
    b ∉ (withdrawManifold b s).manifold.queue ∧ (withdrawManifold b s).manifold.granted ≠ some b := by
  unfold withdrawManifold
  have hNot : b ∉ s.manifold.queue.filter (· ≠ b) := by simp
  by_cases h : s.manifold.granted = some b
  · rw [releaseManifold_holder (by exact h), grantHead_manifold, nextHolder_freeManifold]
    split
    · next c hc =>
      refine ⟨fun hm => hNot (List.mem_of_mem_drop hm), ?_⟩
      rintro ⟨⟩
      exact hNot (List.mem_of_mem_head? hc)
    · exact ⟨hNot, nofun⟩
  · rw [releaseManifold_other (by exact h)]
    exact ⟨hNot, h⟩

theorem endLeak_bay_same (b : BayId) (s : State) : (endLeak b s).bay b = { s.bay b with
    leak := (s.bay b).leak.ended
    record := { s.record b with lines := { (s.record b).lines with
      fill := if s.manifold.granted = some b then false else (s.record b).lines.fill } } } := by
  unfold endLeak
  rw [withdrawManifold_bay_same]
  simp [State.record]

theorem endLeak_gone (b : BayId) (s : State) :
    b ∉ (endLeak b s).manifold.queue ∧ (endLeak b s).manifold.granted ≠ some b := withdrawManifold_gone ..

/-! ## Buffers given up (R118, R123, R124) -/

/-- A buffer whose reduction is given up. -/
def ListenBuffer.cancelled (x : ListenBuffer) : ListenBuffer :=
  match x.state with
  | .queued => x.freed
  | .reducing => { x with discard := true }
  | _ => x

theorem cancelReductions_buf (b : BayId) (k : BufId) (s : State) : (cancelReductions b s).buf b k = (s.buf b k).cancelled := by
  unfold cancelReductions
  rw [cancelBuffer_buf, cancelBuffer_buf, cancelBuffer_buf]
  cases k <;> simp <;> rfl

theorem NoiseUnit.set_get (n : NoiseUnit) (k : BufId) : n.set k (n.get k) = n := by cases k <;> rfl

/-- Giving up a reduction moves its buffer and the count of its bay. -/
theorem cancelBuffer_bay_same (b : BayId) (k : BufId) (s : State) : ∃ n, (cancelBuffer b k s).bay b = { s.bay b with
    noise := (s.bay b).noise.set k (s.buf b k).cancelled, record := { s.record b with pendingReductions := n } } := by
  unfold cancelBuffer ListenBuffer.cancelled
  cases h : (s.buf b k).state with
  | queued =>
    refine ⟨(s.record b).pendingReductions - 1, ?_⟩
    show (mapRecord b (fun r => { r with pendingReductions := r.pendingReductions - 1 }) (mapBuf b k ListenBuffer.freed s)).bay b = _
    simp [mapBuf, State.buf, State.record]
  | reducing =>
    have h' : ((s.bay b).noise.get k).state = .reducing := h
    exact ⟨(s.record b).pendingReductions, by simp [mapBuf, State.buf, State.record, h']⟩
  | free => exact ⟨(s.record b).pendingReductions, by simp [State.buf, NoiseUnit.set_get, State.record]⟩
  | acquiring => exact ⟨(s.record b).pendingReductions, by simp [State.buf, NoiseUnit.set_get, State.record]⟩

theorem cancelBuffer_bay_other {b c : BayId} (k : BufId) (s : State) (h : c ≠ b) : (cancelBuffer b k s).bay c = s.bay c := by
  unfold cancelBuffer
  split
  · show (mapRecord b (fun r => { r with pendingReductions := r.pendingReductions - 1 }) (mapBuf b k ListenBuffer.freed s)).bay c = _
    rw [mapRecord_bay_other _ _ h, mapBuf, mapNoise_bay_other _ _ h]
  · rw [mapBuf, mapNoise_bay_other _ _ h]
  · rfl

/-- Giving up reductions changes no field of the record besides the count. -/
theorem cancelReductions_record (b : BayId) (s : State) :
    ∃ n, (cancelReductions b s).record b = { s.record b with pendingReductions := n } := by
  obtain ⟨m, hm⟩ := cancelBuffer_bay_same b .a0 s
  obtain ⟨n, hn⟩ := cancelBuffer_bay_same b .a1 (cancelBuffer b .a0 s)
  exact ⟨n, by simp only [State.record, cancelReductions, hn, hm]⟩

theorem cancelReductions_bay_other {b c : BayId} (s : State) (h : c ≠ b) : (cancelReductions b s).bay c = s.bay c := by
  rw [cancelReductions, cancelBuffer_bay_other _ _ h, cancelBuffer_bay_other _ _ h]

/-- The blocks that giving up the bay's reductions leaves. -/
theorem cancelReductions_blocks (b : BayId) (s : State) : ((cancelReductions b s).bay b).config = (s.bay b).config ∧
    ((cancelReductions b s).bay b).drive = (s.bay b).drive ∧ ((cancelReductions b s).bay b).sensor = (s.bay b).sensor ∧
    ((cancelReductions b s).bay b).leak = (s.bay b).leak ∧ ((cancelReductions b s).bay b).noise.row = (s.bay b).noise.row := by
  obtain ⟨m, hm⟩ := cancelBuffer_bay_same b .a0 s
  obtain ⟨n, hn⟩ := cancelBuffer_bay_same b .a1 (cancelBuffer b .a0 s)
  rw [cancelReductions, hn, hm]
  exact ⟨rfl, rfl, rfl, rfl, rfl⟩

theorem cancelReductions_engine (b : BayId) (s : State) : (cancelReductions b s).reducer.engine = s.reducer.engine := by
  unfold cancelReductions
  rw [cancelBuffer_reducer, cancelBuffer_reducer]
  split <;> split <;> rfl

/-- With the reducer in order, a buffer that is given up is in the queue no longer, whether it was there or not. -/
theorem cancelBuffer_queue {b : BayId} {k : BufId} {s : State} (h : ReducerOk s) :
    (cancelBuffer b k s).reducer.queue = s.reducer.queue.filter (· ≠ (b, k)) := by
  rw [cancelBuffer_reducer]
  split
  · rfl
  · next hk =>
    refine (List.filter_eq_self.mpr fun e he => ?_).symm
    have : e ≠ (b, k) := fun heq => hk ((h.queued b k).mp (heq ▸ he))
    simpa using this

/-- With the reducer in order, exactly the bay's entries leave the queue. -/
theorem cancelReductions_queue {b : BayId} {s : State} (h : ReducerOk s) :
    (cancelReductions b s).reducer.queue = s.reducer.queue.filter (fun e => decide (e.1 ≠ b)) := by
  rw [cancelReductions, cancelBuffer_queue h.cancel, cancelBuffer_queue h, List.filter_filter]
  refine List.filter_congr fun e _ => ?_
  obtain ⟨c, l⟩ := e
  cases l <;> simp

theorem stopAcquisition_bay_other {b c : BayId} (s : State) (h : c ≠ b) : (stopAcquisition b s).bay c = s.bay c :=
  mapNoise_bay_other _ s h

@[simp] theorem stopAcquisition_row (b : BayId) (s : State) : ((stopAcquisition b s).bay b).noise.row = .idle := by
  simp only [stopAcquisition, mapNoise_bay_same]
  split <;> rfl

/-- Acquisition stops: with one buffer at most ACQUIRING, none is any more. -/
theorem stopAcquisition_buf {b : BayId} {s : State} (h : ¬((s.buf b .a0).state = .acquiring ∧ (s.buf b .a1).state = .acquiring))
    (k : BufId) : (stopAcquisition b s).buf b k = if (s.buf b k).state = .acquiring then (s.buf b k).freed else s.buf b k := by
  simp only [State.buf, stopAcquisition, mapNoise_bay_same]
  simp only [State.buf, NoiseUnit.get] at h
  by_cases h0 : (s.bay b).noise.a0.state = .acquiring
  · have h1 : (s.bay b).noise.a1.state ≠ .acquiring := fun e => h ⟨h0, e⟩
    cases k <;> simp [NoiseUnit.find, h0, h1, NoiseUnit.get, NoiseUnit.set, NoiseUnit.rowIdle]
  · by_cases h1 : (s.bay b).noise.a1.state = .acquiring
    · cases k <;> simp [NoiseUnit.find, h0, h1, NoiseUnit.get, NoiseUnit.set, NoiseUnit.rowIdle]
    · cases k <;> simp [NoiseUnit.find, h0, h1, NoiseUnit.get, NoiseUnit.rowIdle]

end Sys2Proof.Machine
end

section
/-! PROOF. What an entry into ABORTING, CLOSING and FINISHED leaves, field by field (R2, R20, R25, R39, R67 to R71, R89, R90, R118, R123,
R124, R134, R150 to R155, R162, R174). -/

namespace Sys2Proof.Machine

/-! ## Notices raised on the way (R174) -/

/-- The ports of two states differ by raised notices alone, and no pair was lost. -/
structure Raised (s t : State) : Prop where
  same : ∀ p, (t.port p).unnoticed = (s.port p).unnoticed
  kept : ∀ p, ∀ n ∈ (s.port p).notices, n ∈ (t.port p).notices

theorem Raised.of_ports {s t : State} (h : t.ports = s.ports) : Raised s t :=
  ⟨fun p => by rw [State.port, h]; rfl, fun p n hn => by rw [State.port, h]; exact hn⟩

theorem Raised.refl (s : State) : Raised s s := .of_ports rfl

theorem Raised.trans {s t u : State} (h : Raised s t) (h' : Raised t u) : Raised s u :=
  ⟨fun p => (h'.same p).trans (h.same p), fun p n hn => h'.kept p n (h.kept p n hn)⟩

theorem mem_offer_of_mem {m n : Notice} {p : Port} (h : n ∈ p.notices) : n ∈ (p.offer m).notices := by
  unfold Port.offer
  split
  · exact mem_insertNotice.mpr (.inr h)
  · exact h

theorem raise_raised (n : Notice) (s : State) : Raised s (raise n s) :=
  ⟨fun p => by rw [raise_port]; exact Port.offer_unnoticed n _, fun p m hm => by rw [raise_port]; exact mem_offer_of_mem hm⟩

theorem Port.unnoticed_eq_iff {p q : Port} : q.unnoticed = p.unnoticed ↔ { q with notices := p.notices, ntf := p.ntf } = p := by
  constructor
  · intro h
    cases p; cases q
    simp only [Port.unnoticed, Port.mk.injEq] at h ⊢
    simp_all
  · intro h
    show Port.unnoticed { q with notices := p.notices, ntf := p.ntf } = p.unnoticed
    rw [h]

theorem Raised.portsRaised {s t : State} (h : Raised s t) : PortsRaised s t := fun p => Port.unnoticed_eq_iff.mp (h.same p)

theorem Raised.mask {s t : State} (h : Raised s t) (p : PortId) : (t.port p).mask = (s.port p).mask := by
  show (t.port p).unnoticed.mask = (s.port p).unnoticed.mask
  rw [h.same]

theorem Offered.raised {n : Notice} {s t : State} (h : Offered n s) (ht : Raised s t) : Offered n t := fun p hp => by
  rw [ht.mask] at hp
  exact ht.kept p n (h p hp)

theorem offered_raise (n : Notice) (s : State) : Offered n (raise n s) := fun p hp => by
  rw [raise_port] at hp ⊢
  unfold Port.offer at hp ⊢
  split
  · exact mem_insertNotice.mpr (.inl rfl)
  · next hm => rw [if_neg hm] at hp; exact absurd hp hm

theorem Raised.raise {s t : State} (n : Notice) (h : Raised s t) : Raised s (raise n t) := h.trans (raise_raised n t)

/-- The last change of a state raised `n`. -/
theorem Offered.of_raise {n : Notice} {s t : State} (h : Raised (raise n s) t) : Offered n t := (offered_raise n s).raised h

theorem setBayState_raised (b : BayId) (st : BayState) (s : State) : Raised s (setBayState b st s) :=
  Raised.raise _ (.of_ports rfl)

theorem setOwner_raised (b : BayId) (o : Owner) (s : State) : Raised s (setOwner b o s) :=
  Raised.raise _ (.of_ports rfl)

theorem backlogCheck_raised (s : State) : Raised s (backlogCheck s) := by
  unfold backlogCheck
  split
  · split
    · exact .refl s
    · exact Raised.raise _ (.of_ports rfl)
  · exact .of_ports rfl

theorem commit_raised (b : BayId) (rep : Report) (s : State) : Raised s (commit b rep s) := by
  unfold commit
  refine Raised.trans ?_ (backlogCheck_raised _)
  exact .raise _ (.raise _ (.of_ports rfl))

theorem handReport_raised (b : BayId) (rep : Report) (s : State) : Raised s (handReport b rep s) := by
  unfold handReport
  split
  · exact commit_raised ..
  · exact .of_ports rfl

theorem releaseReference_raised (plan : Option Nat) (s : State) : Raised s (releaseReference plan s) := by
  unfold releaseReference
  split
  · exact .refl s
  · dsimp only
    split
    · exact Raised.raise _ (.of_ports rfl)
    · exact .of_ports rfl

theorem cellStopCheck_raised (s : State) : Raised s (cellStopCheck s) := by
  unfold cellStopCheck
  split
  · exact Raised.raise _ (.of_ports rfl)
  · exact .refl s

/-! ## A report handed to the queue (R154, R155, R162) -/

theorem offered_backlogCheck {s : State} (hMark : s.reports.backlog = false)
    (hThreshold : s.cell.backlogThreshold ≤ s.reports.queue.length) : Offered .backlog (backlogCheck s) := by
  unfold backlogCheck
  rw [if_pos hThreshold, if_neg (by simp [hMark])]
  exact offered_raise _ _

/-- The queue's side of a report handed over (R154, R155, R162). -/
theorem handReport_taken (b : BayId) (rep : Report) (s : State) : ReportTaken b rep s (handReport b rep s) := by
  unfold ReportTaken
  by_cases hRoom : s.reports.queue.length < 16
  · have hReports : (handReport b rep s).reports = _ := (handReport_reports ..).trans ((if_pos hRoom).trans (commit_reports ..))
    have hHand : handReport b rep s = commit b rep s := if_pos hRoom
    rw [if_pos hRoom, hReports]
    refine ⟨rfl, rfl, rfl, rfl, fun hMark hThreshold => ?_, ?_, ?_, ?_⟩
    · rw [hHand, commit]
      exact offered_backlogCheck (by simpa using hMark) (by simpa using hThreshold)
    · rw [handReport_record]; simp [hRoom, Config.reportCapacity]
    · rw [hHand, commit]
      exact Offered.of_raise ((raise_raised ..).trans (backlogCheck_raised _))
    · rw [hHand, commit]
      exact Offered.of_raise (backlogCheck_raised _)
  · rw [if_neg hRoom, handReport_reports, if_neg hRoom, handReport_record]
    simp [hRoom, Config.reportCapacity]

/-- What the queue takes does not hang on what else the event has changed. -/
theorem ReportTaken.congr {b : BayId} {rep : Report} {s s' t t' : State} (h : ReportTaken b rep s t) (hReports : s'.reports = s.reports)
    (hThreshold : s'.cell.backlogThreshold = s.cell.backlogThreshold) (hReports' : t'.reports = t.reports)
    (hRecord : (t'.record b).reportStatus = (t.record b).reportStatus) (hRaised : Raised t t') : ReportTaken b rep s' t' := by
  unfold ReportTaken at h ⊢
  rw [hReports, hThreshold, hReports', hRecord]
  split
  · next hRoom =>
    rw [if_pos hRoom] at h
    obtain ⟨hQueue, hNext, hWaiting, hMark, hBacklog, hStatus, hReady, hAvailable⟩ := h
    exact ⟨hQueue, hNext, hWaiting, hMark, fun h1 h2 => (hBacklog h1 h2).raised hRaised, hStatus, hReady.raised hRaised,
      hAvailable.raised hRaised⟩
  · next hRoom => rwa [if_neg hRoom] at h

/-! ## A reference given back (R39) -/

@[simp] theorem releaseReference_cell (plan : Option Nat) (s : State) : (releaseReference plan s).cell = s.cell := by
  unfold releaseReference; split <;> [rfl; (dsimp only; split <;> rfl)]
@[simp] theorem releaseReference_reducer (plan : Option Nat) (s : State) : (releaseReference plan s).reducer = s.reducer := by
  unfold releaseReference; split <;> [rfl; (dsimp only; split <;> rfl)]
@[simp] theorem releaseReference_manifold (plan : Option Nat) (s : State) : (releaseReference plan s).manifold = s.manifold := by
  unfold releaseReference; split <;> [rfl; (dsimp only; split <;> rfl)]
@[simp] theorem releaseReference_reports (plan : Option Nat) (s : State) : (releaseReference plan s).reports = s.reports := by
  unfold releaseReference; split <;> [rfl; (dsimp only; split <;> rfl)]
@[simp] theorem releaseReference_pending (plan : Option Nat) (s : State) : (releaseReference plan s).pending = s.pending := by
  unfold releaseReference; split <;> [rfl; (dsimp only; split <;> rfl)]
@[simp] theorem releaseReference_bay (plan : Option Nat) (s : State) (c : BayId) : (releaseReference plan s).bay c = s.bay c := by
  simp [State.bay]
@[simp] theorem releaseReference_record (plan : Option Nat) (s : State) (c : BayId) : (releaseReference plan s).record c = s.record c := by
  simp [State.record]

/-- The store after a reference to plan `n` is given back. -/
def PlanStore.unreferenced (st : PlanStore) (n : Nat) : PlanStore :=
  let e := st.entry n
  let st' := st.setEntry n { e with refCount := e.refCount - 1 }
  if e.state = .retiring ∧ e.refCount ≤ 1 then st'.emptyPlan n else st'

theorem releaseReference_store (plan : Option Nat) (s : State) : (releaseReference plan s).store =
    match plan with
    | none => s.store
    | some n => s.store.unreferenced n := by
  unfold releaseReference PlanStore.unreferenced
  cases plan with
  | none => rfl
  | some n =>
    dsimp only
    by_cases h : (s.store.entry n).state = .retiring ∧ (s.store.entry n).refCount ≤ 1
    · rw [if_pos h, if_pos ⟨h.1, by omega⟩]; rfl
    · rw [if_neg h, if_neg fun e => h ⟨e.1, by omega⟩]

theorem offered_planRetired {n : Nat} {s : State} (h : (s.store.entry n).state = .retiring ∧ (s.store.entry n).refCount ≤ 1) :
    Offered (.planRetired n) (releaseReference (some n) s) := by
  simp only [releaseReference]
  rw [if_pos ⟨h.1, by omega⟩]
  exact offered_raise _ _

theorem PlanStore.unreferenced_tables (st : PlanStore) (n : Nat) :
    (st.unreferenced n).variants = st.variants ∧ (st.unreferenced n).common = st.common := by
  simp only [unreferenced]
  split <;> simp

theorem PlanStore.entry_unreferenced_other (st : PlanStore) {n m : Nat} (h : m ≠ n) : (st.unreferenced n).entry m = st.entry m := by
  simp only [unreferenced]
  split
  · rw [entry_emptyPlan_other _ h, entry_setEntry_other _ _ h]
  · exact entry_setEntry_other _ _ h

theorem PlanStore.entry_unreferenced_same (st : PlanStore) {n : Nat} (hn : isPlanNumber n = true) : (st.unreferenced n).entry n =
    if (st.entry n).state = .retiring ∧ (st.entry n).refCount ≤ 1 then
      ⟨.empty, none, (st.entry n).version, false, 0, none, none⟩
    else { st.entry n with refCount := (st.entry n).refCount - 1 } := by
  simp only [unreferenced]
  split
  · rw [entry_emptyPlan_same _ hn, entry_setEntry_same _ _ hn]; rfl
  · exact entry_setEntry_same _ _ hn

theorem PlanStore.slotAt_unreferenced (st : PlanStore) (n k : Nat) : (st.unreferenced n).slotAt k =
    if (st.entry n).state = .retiring ∧ (st.entry n).refCount ≤ 1 then (st.slotAt k).filter (·.plan != n) else st.slotAt k := by
  simp only [unreferenced]
  split
  · rw [slotAt_emptyPlan, slotAt_setEntry]
  · exact slotAt_setEntry ..

theorem PlanStore.slots_unreferenced {st : PlanStore} {n : Nat}
    (h : ¬((st.entry n).state = .retiring ∧ (st.entry n).refCount ≤ 1)) : (st.unreferenced n).slots = st.slots := by
  simp only [unreferenced, if_neg h, setEntry_slots]

/-- A bay gives its reference up (R39, R71). -/
theorem referenceReturned {n : Nat} {s t : State} (hn : isPlanNumber n = true) (hStore : t.store = s.store.unreferenced n)
    (hNotice : (s.store.entry n).state = .retiring ∧ (s.store.entry n).refCount ≤ 1 → Offered (.planRetired n) t) :
    ReferenceReturned n s t := by
  unfold ReferenceReturned
  rw [hStore, PlanStore.entry_unreferenced_same _ hn]
  split
  · next h =>
    refine ⟨rfl, hNotice h, fun k o hk => ?_⟩
    rw [PlanStore.slotAt_unreferenced, if_pos h, hk]
    by_cases ho : o.plan = n <;> simp [ho, Option.filter]
  · next h => exact ⟨rfl, PlanStore.slots_unreferenced h⟩

/-! ## The cell's way out of STOPPING (R2) -/

@[simp] theorem cellStopCheck_store (s : State) : (cellStopCheck s).store = s.store := by
  unfold cellStopCheck; split <;> rfl
@[simp] theorem cellStopCheck_reducer (s : State) : (cellStopCheck s).reducer = s.reducer := by
  unfold cellStopCheck; split <;> rfl
@[simp] theorem cellStopCheck_manifold (s : State) : (cellStopCheck s).manifold = s.manifold := by
  unfold cellStopCheck; split <;> rfl
@[simp] theorem cellStopCheck_reports (s : State) : (cellStopCheck s).reports = s.reports := by
  unfold cellStopCheck; split <;> rfl
@[simp] theorem cellStopCheck_pending (s : State) : (cellStopCheck s).pending = s.pending := by
  unfold cellStopCheck; split <;> rfl
@[simp] theorem cellStopCheck_bay (s : State) (c : BayId) : (cellStopCheck s).bay c = s.bay c := by
  simp [State.bay]
@[simp] theorem cellStopCheck_record (s : State) (c : BayId) : (cellStopCheck s).record c = s.record c := by
  simp [State.record]

theorem cellStopCheck_cell (s : State) : (cellStopCheck s).cell =
    if s.cell.state = .stopping ∧ anySequenced s = false then { s.cell with state := .stopped } else s.cell := by
  unfold cellStopCheck; split <;> rfl

theorem anySequenced_iff {s : State} : anySequenced s = true ↔ ∃ b, (s.record b).state.sequenced = true := by
  unfold anySequenced
  rw [List.any_eq_true]
  constructor
  · rintro ⟨b, -, hb⟩; exact ⟨b, hb⟩
  · rintro ⟨b, hb⟩; exact ⟨b, by cases b <;> decide, hb⟩

theorem anySequenced_eq_false_iff {s : State} : anySequenced s = false ↔ ∀ b, (s.record b).state.sequenced = false := by
  rw [← Bool.not_eq_true, anySequenced_iff]
  simp

/-! ## FINISHED (R71) -/

/-- The bay's own side of an entry into FINISHED, before its report is handed over. -/
def leavePlan (b : BayId) (s : State) : State :=
  let t := mapRecord b (fun r => { r with phase := .none, holdPoint := none })
    (mapSensor b (fun l => { l with lossWatch := none }) (mapDrive b DriveLink.halt s))
  setBayState b .finished (setOwner b .line (releaseReference (t.record b).planNumber t))

theorem finishBay_eq (b : BayId) (v : FinalVerdict) (s : State) :
    finishBay b v s = cellStopCheck (handReport b (buildReport b v (leavePlan b s)) (leavePlan b s)) := rfl

theorem leavePlan_bay_same (b : BayId) (s : State) : (leavePlan b s).bay b = { s.bay b with
    record := { s.record b with phase := .none, holdPoint := none, owner := .line, state := .finished }
    drive := (s.bay b).drive.halt, sensor := { (s.bay b).sensor with lossWatch := none } } := by
  simp [leavePlan, setBayState, setOwner, State.record]

theorem leavePlan_bay_other {b c : BayId} (s : State) (h : c ≠ b) : (leavePlan b s).bay c = s.bay c := by
  simp only [leavePlan]
  rw [setBayState_bay_other _ _ h, setOwner_bay_other _ _ h, releaseReference_bay, mapRecord_bay_other _ _ h,
    mapSensor_bay_other _ _ h, mapDrive_bay_other _ _ h]

theorem leavePlan_record_same (b : BayId) (s : State) : (leavePlan b s).record b =
    { s.record b with phase := .none, holdPoint := none, owner := .line, state := .finished } :=
  congrArg Bay.record (leavePlan_bay_same b s)

@[simp] theorem leavePlan_cell (b : BayId) (s : State) : (leavePlan b s).cell = s.cell := by simp [leavePlan]
@[simp] theorem leavePlan_reducer (b : BayId) (s : State) : (leavePlan b s).reducer = s.reducer := by simp [leavePlan]
@[simp] theorem leavePlan_manifold (b : BayId) (s : State) : (leavePlan b s).manifold = s.manifold := by simp [leavePlan]
@[simp] theorem leavePlan_reports (b : BayId) (s : State) : (leavePlan b s).reports = s.reports := by simp [leavePlan]
@[simp] theorem leavePlan_pending (b : BayId) (s : State) : (leavePlan b s).pending = s.pending := by simp [leavePlan]

theorem leavePlan_store (b : BayId) (s : State) : (leavePlan b s).store =
    match (s.record b).planNumber with
    | none => s.store
    | some n => s.store.unreferenced n := by
  simp only [leavePlan, setBayState_store, setOwner_store, releaseReference_store]
  simp

theorem leavePlan_raised (b : BayId) (s : State) : Raised s (leavePlan b s) := by
  simp only [leavePlan]
  refine Raised.trans ?_ ((releaseReference_raised _ _).trans ((setOwner_raised _ _ _).trans (setBayState_raised _ _ _)))
  exact .of_ports rfl

theorem finishBay_raised (b : BayId) (v : FinalVerdict) (s : State) : Raised (leavePlan b s) (finishBay b v s) := by
  rw [finishBay_eq]
  exact (handReport_raised ..).trans (cellStopCheck_raised _)

theorem buildReport_leavePlan (b : BayId) (v : FinalVerdict) (s : State) :
    buildReport b v (leavePlan b s) = reportOf b v (s.record b).cause (s.record b).secondary s := by
  simp only [buildReport, reportOf, leavePlan_record_same, State.now, leavePlan_cell]

theorem finishBay_record_same (b : BayId) (v : FinalVerdict) (s : State) : (finishBay b v s).record b =
    { s.record b with
      phase := .none, holdPoint := none, owner := .line, state := .finished
      reportStatus := if s.reports.queue.length < Config.reportCapacity then .committed else .waiting } := by
  rw [finishBay_eq, cellStopCheck_record, handReport_record, if_pos rfl, leavePlan_record_same, leavePlan_reports]

theorem finishBay_bay_other {b c : BayId} (v : FinalVerdict) (s : State) (h : c ≠ b) : (finishBay b v s).bay c = s.bay c := by
  rw [finishBay_eq, cellStopCheck_bay, handReport_bay_other _ _ h, leavePlan_bay_other s h]

theorem finishBay_blocks (b : BayId) (v : FinalVerdict) (s : State) : ((finishBay b v s).bay b).config = (s.bay b).config ∧
    ((finishBay b v s).bay b).drive = (s.bay b).drive.halt ∧
    ((finishBay b v s).bay b).sensor = { (s.bay b).sensor with lossWatch := none } ∧
    ((finishBay b v s).bay b).noise = (s.bay b).noise ∧ ((finishBay b v s).bay b).leak = (s.bay b).leak := by
  rw [finishBay_eq]
  simp [leavePlan_bay_same]

@[simp] theorem finishBay_manifold (b : BayId) (v : FinalVerdict) (s : State) : (finishBay b v s).manifold = s.manifold := by
  simp [finishBay_eq]

@[simp] theorem finishBay_reducer (b : BayId) (v : FinalVerdict) (s : State) : (finishBay b v s).reducer = s.reducer := by
  simp [finishBay_eq]

@[simp] theorem finishBay_pending (b : BayId) (v : FinalVerdict) (s : State) : (finishBay b v s).pending = s.pending := by
  simp [finishBay_eq]

theorem finishBay_store (b : BayId) (v : FinalVerdict) (s : State) : (finishBay b v s).store =
    match (s.record b).planNumber with
    | none => s.store
    | some n => s.store.unreferenced n := by
  rw [finishBay_eq, cellStopCheck_store, handReport_store, leavePlan_store]

/-- Whether another bay than `b` is under test. -/
def othersSequenced (b : BayId) (s : State) : Prop := ∃ c, c ≠ b ∧ (s.record c).state.sequenced = true

/-- After bay `b` has finished, some bay is under test exactly when another was. -/
theorem anySequenced_finished {b : BayId} {s t : State} (hSame : (t.record b).state = .finished)
    (hOther : ∀ c, c ≠ b → (t.record c).state = (s.record c).state) : anySequenced t = true ↔ othersSequenced b s := by
  rw [anySequenced_iff]
  constructor
  · rintro ⟨c, hc⟩
    have hcb : c ≠ b := by rintro rfl; rw [hSame] at hc; cases hc
    exact ⟨c, hcb, by rwa [hOther c hcb] at hc⟩
  · rintro ⟨c, hcb, hc⟩
    exact ⟨c, by rwa [hOther c hcb]⟩

theorem finishBay_cell (b : BayId) (v : FinalVerdict) (s : State) :
    (s.cell.state = .stopping → ¬othersSequenced b s → (finishBay b v s).cell = { s.cell with state := .stopped } ∧
      Offered .cellState (finishBay b v s)) ∧
    (s.cell.state ≠ .stopping ∨ othersSequenced b s → (finishBay b v s).cell = s.cell) := by
  have hAny : anySequenced (handReport b (buildReport b v (leavePlan b s)) (leavePlan b s)) = true ↔ othersSequenced b s := by
    refine anySequenced_finished ?_ fun c hc => ?_
    · rw [handReport_record, if_pos rfl, leavePlan_record_same]
    · rw [State.record, handReport_bay_other _ _ hc, leavePlan_bay_other s hc]; rfl
  rw [finishBay_eq]
  constructor
  · intro hState hNone
    have hStop : (handReport b (buildReport b v (leavePlan b s)) (leavePlan b s)).cell.state = .stopping ∧
        anySequenced (handReport b (buildReport b v (leavePlan b s)) (leavePlan b s)) = false := by
      refine ⟨by simpa using hState, ?_⟩
      rw [← Bool.not_eq_true, hAny]
      exact hNone
    refine ⟨?_, ?_⟩
    · rw [cellStopCheck_cell, if_pos hStop]; simp
    · rw [cellStopCheck, if_pos hStop]; exact offered_raise _ _
  · intro hGo
    rw [cellStopCheck_cell, if_neg]
    · simp
    · rintro ⟨hState, hNone⟩
      rcases hGo with hGo | hGo
      · exact hGo (by simpa using hState)
      · rw [hAny.mpr hGo] at hNone; cases hNone

/-- What an entry into FINISHED leaves (R71). -/
theorem finishBay_finishedWith (b : BayId) (v : FinalVerdict) (s : State) :
    FinishedWith b v (s.record b).cause (s.record b).secondary s (finishBay b v s) := by
  obtain ⟨hConfig, hDrive, hSensor, -, hLeak⟩ := finishBay_blocks b v s
  have hRecord := finishBay_record_same b v s
  have hRaised := finishBay_raised b v s
  obtain ⟨hLast, hNotLast⟩ := finishBay_cell b v s
  refine {
    record := by rw [hRecord]
    drive := hDrive
    watch := hSensor
    rest := ⟨hConfig, hLeak⟩
    notice := ⟨?owner, ?bayState⟩
    report := ?report
    reference := fun n hPlan hn => ?reference
    others := fun m hm => ?others
    tables := ?tables
    lastBay := fun hState hNone => hLast hState fun ⟨c, hc, hs⟩ => by rw [hNone c hc] at hs; cases hs
    otherBay := hNotLast
    shared := ⟨by simp, ((leavePlan_raised b s).trans hRaised).portsRaised⟩ }
  case owner =>
    refine Offered.raised ?_ hRaised
    simp only [leavePlan]
    exact Offered.of_raise (setBayState_raised ..)
  case bayState =>
    refine Offered.raised ?_ hRaised
    simp only [leavePlan]
    exact offered_raise _ _
  case report =>
    rw [← buildReport_leavePlan]
    exact (handReport_taken ..).congr (leavePlan_reports b s).symm (by rw [leavePlan_cell]) (by rw [finishBay_eq, cellStopCheck_reports])
      (by rw [finishBay_eq, cellStopCheck_record]) (by rw [finishBay_eq]; exact cellStopCheck_raised _)
  case reference =>
    refine referenceReturned hn (by rw [finishBay_store, hPlan]) fun hLastWalker => Offered.raised ?_ hRaised
    simp only [leavePlan]
    refine Offered.raised ?_ ((setOwner_raised ..).trans (setBayState_raised ..))
    have hPlan' : ((mapRecord b (fun r => { r with phase := .none, holdPoint := none })
        (mapSensor b (fun l => { l with lossWatch := none }) (mapDrive b DriveLink.halt s))).record b).planNumber = some n := by
      simpa using hPlan
    rw [hPlan']
    exact offered_planRetired (by simpa using hLastWalker)
  case others =>
    rw [finishBay_store]
    split
    · rfl
    · next n hPlan => exact PlanStore.entry_unreferenced_other _ fun e => hm (by rw [hPlan, e])
  case tables =>
    rw [finishBay_store]
    split
    · exact ⟨rfl, rfl⟩
    · exact PlanStore.unreferenced_tables ..

end Sys2Proof.Machine
end

section
/-! PROOF. What an entry into ABORTING and CLOSING leaves, and how the wind-down carries it on into FINISHED (R20, R25, R67 to R71, R89,
R90, R118, R123, R124, R134, R150). -/

namespace Sys2Proof.Machine

/-! ## ABORTING (R20) -/

/-- Entry into ABORTING up to its notices. -/
def abortRecorded (b : BayId) (cause : Cause) (s : State) : State :=
  raise (if cause.isCommand then .aborted b else .fault b) (setBayState b .aborting (mapRecord b (fun r => { r with
    cause := some cause, holdRequest := false, endRequest := false, phase := .none, holdPoint := none, latched := none,
    startTemperature := none }) s))

/-- Entry into ABORTING up to the end of the step's work. -/
def abortWorkEnded (b : BayId) (cause : Cause) (s : State) : State :=
  stopAcquisition b (endLeak b (cancelReductions b (abortRecorded b cause s)))

/-- The drive after an entry into ABORTING: a wind-down of CLOSING goes on, another one begins (R70, R89). -/
def abortDrive (fromClosing : Prop) [Decidable fromClosing] (ramp : Nat) (now : Time) (d : DriveLink) : DriveLink :=
  if fromClosing then { d with dwell := none }
  else { d with target := 0, rampRate := ramp, windDown := .inProgress now, dwell := none }

theorem abortRecorded_bay (b : BayId) (cause : Cause) (s : State) : (abortRecorded b cause s).bay b = { s.bay b with
    record := { s.record b with
      state := .aborting, cause := some cause, holdRequest := false, endRequest := false, phase := .none, holdPoint := none,
      latched := none, startTemperature := none } } := by
  simp [abortRecorded, setBayState, State.record]

theorem abortRecorded_bay_other {b c : BayId} (cause : Cause) (s : State) (h : c ≠ b) :
    (abortRecorded b cause s).bay c = s.bay c := by
  rw [abortRecorded, raise_bay, setBayState_bay_other _ _ h, mapRecord_bay_other _ _ h]

@[simp] theorem abortRecorded_buf (b : BayId) (k : BufId) (cause : Cause) (s : State) :
    (abortRecorded b cause s).buf b k = s.buf b k := by
  rw [State.buf, abortRecorded_bay]; rfl

/-- The record and the blocks of the bay once the work of its step has ended. -/
theorem abortWorkEnded_bay (b : BayId) (cause : Cause) (s : State) : ∃ n f,
    (abortWorkEnded b cause s).record b = { s.record b with
      state := .aborting, cause := some cause, holdRequest := false, endRequest := false, phase := .none, holdPoint := none,
      latched := none, startTemperature := none, pendingReductions := n, lines := { (s.record b).lines with fill := f } } ∧
    ((abortWorkEnded b cause s).bay b).config = (s.bay b).config ∧ ((abortWorkEnded b cause s).bay b).drive = (s.bay b).drive ∧
    ((abortWorkEnded b cause s).bay b).sensor = (s.bay b).sensor ∧
    ((abortWorkEnded b cause s).bay b).leak = (s.bay b).leak.ended := by
  obtain ⟨n, hRecord⟩ := cancelReductions_record b (abortRecorded b cause s)
  obtain ⟨hConfig, hDrive, hSensor, hLeak, -⟩ := cancelReductions_blocks b (abortRecorded b cause s)
  have hBay := abortRecorded_bay b cause s
  have hEnd := endLeak_bay_same b (cancelReductions b (abortRecorded b cause s))
  rw [hRecord, State.record, hBay] at hEnd
  rw [hBay] at hConfig hDrive hSensor hLeak
  refine ⟨n, if (cancelReductions b (abortRecorded b cause s)).manifold.granted = some b then false else (s.record b).lines.fill,
    ?_, ?_, ?_, ?_, ?_⟩
  · rw [abortWorkEnded, stopAcquisition, mapNoise_recordOf, State.record, hEnd]
  · rw [abortWorkEnded, stopAcquisition, mapNoise_config, hEnd]; exact hConfig
  · rw [abortWorkEnded, stopAcquisition, mapNoise_drive, hEnd]; exact hDrive
  · rw [abortWorkEnded, stopAcquisition, mapNoise_sensor, hEnd]; exact hSensor
  · rw [abortWorkEnded, stopAcquisition, mapNoise_leak, hEnd]; exact congrArg LeakUnit.ended hLeak

theorem mapDrive_mapDrive (b : BayId) (f g : DriveLink → DriveLink) (s : State) :
    mapDrive b f (mapDrive b g s) = mapDrive b (fun d => f (g d)) s := by
  cases b <;> rfl

theorem beginAborting_eq (b : BayId) (cause : Cause) (s : State) : beginAborting b cause s =
    refreshLines b (mapDrive b (abortDrive ((s.record b).state = .closing) (abortWorkEnded b cause s).cell.stopRamp
      (abortWorkEnded b cause s).now) (abortWorkEnded b cause s)) := by
  by_cases h : (s.record b).state = .closing
  · rw [show abortDrive ((s.record b).state = .closing) (abortWorkEnded b cause s).cell.stopRamp (abortWorkEnded b cause s).now =
      fun d => { d with dwell := none } from funext fun _ => if_pos h]
    simp only [beginAborting, if_pos h]
    rfl
  · rw [show abortDrive ((s.record b).state = .closing) (abortWorkEnded b cause s).cell.stopRamp (abortWorkEnded b cause s).now =
      fun d => { d with
        target := 0, rampRate := (abortWorkEnded b cause s).cell.stopRamp, windDown := .inProgress (abortWorkEnded b cause s).now,
        dwell := none } from funext fun _ => if_neg h]
    simp only [beginAborting, if_neg h]
    exact congrArg (refreshLines b) (mapDrive_mapDrive b _ _ _)

/-- The shared blocks that an entry into ABORTING leaves. -/
theorem abortWorkEnded_shared (b : BayId) (cause : Cause) (s : State) :
    (abortWorkEnded b cause s).cell = s.cell ∧ (abortWorkEnded b cause s).store = s.store ∧
    (abortWorkEnded b cause s).reports = s.reports ∧ (abortWorkEnded b cause s).pending = s.pending ∧
    (abortWorkEnded b cause s).ports = (abortRecorded b cause s).ports ∧
    (abortWorkEnded b cause s).reducer = (cancelReductions b (abortRecorded b cause s)).reducer := by
  obtain ⟨hCell, hStore, hReducer, hReports, hPorts, hPending⟩ :=
    State.rest_eq_iff.mp (endLeak_rest b (cancelReductions b (abortRecorded b cause s)))
  simp only [abortWorkEnded, stopAcquisition, mapNoise_cell, mapNoise_store, mapNoise_reports, mapNoise_pending, mapNoise_ports,
    mapNoise_reducer, hCell, hStore, hReducer, hReports, hPorts, hPending]
  simp [cancelReductions, abortRecorded]

theorem beginAborting_shared (b : BayId) (cause : Cause) (s : State) :
    (beginAborting b cause s).cell = s.cell ∧ (beginAborting b cause s).store = s.store ∧
    (beginAborting b cause s).reports = s.reports ∧ (beginAborting b cause s).pending = s.pending ∧
    (beginAborting b cause s).ports = (abortRecorded b cause s).ports ∧
    (beginAborting b cause s).reducer = (cancelReductions b (abortRecorded b cause s)).reducer := by
  obtain ⟨h1, h2, h3, h4, h5, h6⟩ := abortWorkEnded_shared b cause s
  rw [beginAborting_eq]
  obtain ⟨hCell, hStore, hReducer, hReports, hPorts, hPending⟩ := State.rest_eq_iff.mp (refreshLines_rest b (mapDrive b
    (abortDrive ((s.record b).state = .closing) (abortWorkEnded b cause s).cell.stopRamp (abortWorkEnded b cause s).now)
    (abortWorkEnded b cause s)))
  exact ⟨hCell.trans h1, hStore.trans h2, hReports.trans h3, hPending.trans h4, hPorts.trans h5, hReducer.trans h6⟩

theorem beginAborting_record (b : BayId) (cause : Cause) (s : State) : ∃ n l, (beginAborting b cause s).record b = { s.record b with
    state := .aborting, cause := some cause, holdRequest := false, endRequest := false, phase := .none, holdPoint := none,
    latched := none, startTemperature := none, pendingReductions := n, lines := l } ∧
    ∃ f, l = if (s.record b).owner = .sequencer then
      sequencerLines (s.bay b).config.map .aborting .idle { (s.record b).lines with fill := f }
      else { (s.record b).lines with fill := f } := by
  obtain ⟨n, f, hRecord, hConfig, -, -, hLeak⟩ := abortWorkEnded_bay b cause s
  refine ⟨n, _, ?_, f, rfl⟩
  rw [beginAborting_eq, refreshLines_record, mapDrive_recordOf, mapDrive_config, mapDrive_leak, hRecord, hConfig, hLeak]
  rfl

theorem beginAborting_blocks (b : BayId) (cause : Cause) (s : State) :
    ((beginAborting b cause s).bay b).config = (s.bay b).config ∧
    ((beginAborting b cause s).bay b).drive = abortDrive ((s.record b).state = .closing) s.cell.stopRamp s.now (s.bay b).drive ∧
    ((beginAborting b cause s).bay b).sensor = (s.bay b).sensor ∧
    ((beginAborting b cause s).bay b).leak = (s.bay b).leak.ended := by
  obtain ⟨n, f, -, hConfig, hDrive, hSensor, hLeak⟩ := abortWorkEnded_bay b cause s
  obtain ⟨hCell, -⟩ := abortWorkEnded_shared b cause s
  rw [beginAborting_eq]
  simp [hConfig, hDrive, hSensor, hLeak, hCell, State.now]

theorem endLeak_buf (b : BayId) (k : BufId) (s : State) : (endLeak b s).buf b k = s.buf b k := by
  rw [State.buf, endLeak_bay_same]; rfl

/-- The bay's buffers after an entry into ABORTING: reductions given up, the acquisition stopped (R118, R123, R124). -/
theorem beginAborting_buf {b : BayId} (cause : Cause) {s : State}
    (h : ¬((s.buf b .a0).state = .acquiring ∧ (s.buf b .a1).state = .acquiring)) (k : BufId) : (beginAborting b cause s).buf b k =
    if (s.buf b k).state = .acquiring then (s.buf b k).freed else (s.buf b k).cancelled := by
  have hCancelled : ∀ l, (endLeak b (cancelReductions b (abortRecorded b cause s))).buf b l = (s.buf b l).cancelled := fun l => by
    rw [endLeak_buf, cancelReductions_buf, abortRecorded_buf]
  have hAcquiring : ∀ x : ListenBuffer, x.cancelled.state = .acquiring ↔ x.state = .acquiring := fun x => by
    unfold ListenBuffer.cancelled
    split <;> simp_all [ListenBuffer.freed]
  have hStop := stopAcquisition_buf (s := endLeak b (cancelReductions b (abortRecorded b cause s))) (b := b)
    (by simpa only [hCancelled, hAcquiring] using h) k
  simp only [hCancelled, hAcquiring] at hStop
  rw [beginAborting_eq, State.buf, refreshLines_noise, mapDrive_noise]
  refine hStop.trans ?_
  split
  · next hx => simp [ListenBuffer.cancelled, hx]
  · rfl

theorem beginAborting_row (b : BayId) (cause : Cause) (s : State) : ((beginAborting b cause s).bay b).noise.row = .idle := by
  rw [beginAborting_eq, refreshLines_noise, mapDrive_noise]
  exact stopAcquisition_row ..

theorem beginAborting_manifold (b : BayId) (cause : Cause) (s : State) : (beginAborting b cause s).manifold =
    (endLeak b (cancelReductions b (abortRecorded b cause s))).manifold := by
  rw [beginAborting_eq, refreshLines_manifold]; rfl

theorem beginAborting_bay_other {b c : BayId} (cause : Cause) (s : State) (h : c ≠ b) :
    (beginAborting b cause s).bay c = (endLeak b (cancelReductions b (abortRecorded b cause s))).bay c := by
  rw [beginAborting_eq, refreshLines_bay_other _ h, mapDrive_bay_other _ _ h, abortWorkEnded, stopAcquisition_bay_other _ h]

theorem beginAborting_offered (b : BayId) (cause : Cause) (s : State) : Raised s (beginAborting b cause s) ∧
    Offered (if cause.isCommand then .aborted b else .fault b) (beginAborting b cause s) ∧
    Offered (.bayState b) (beginAborting b cause s) := by
  obtain ⟨-, -, -, -, hPorts, -⟩ := beginAborting_shared b cause s
  have hRaised : Raised (abortRecorded b cause s) (beginAborting b cause s) := .of_ports hPorts
  refine ⟨Raised.trans ?_ hRaised, Offered.raised (offered_raise _ _) hRaised, Offered.raised ?_ hRaised⟩
  · exact .raise _ (.raise _ (.of_ports rfl))
  · exact Offered.of_raise (raise_raised _ _)

/-- What a bay under the sequencer holds that has entered ABORTING (R20, R25, R118, R123, R124, R134, R150). -/
theorem beginAborting_entered {b : BayId} (cause : Cause) {s : State} (hReducer : ReducerOk s)
    (hOne : ¬((s.buf b .a0).state = .acquiring ∧ (s.buf b .a1).state = .acquiring)) (hOwner : (s.record b).owner = .sequencer) :
    AbortEntered b cause s (beginAborting b cause s) := by
  obtain ⟨n, l, hRecord, f, hLines⟩ := beginAborting_record b cause s
  obtain ⟨hConfig, hDrive, hSensor, hLeak⟩ := beginAborting_blocks b cause s
  obtain ⟨hCell, hStore, hReports, -, -, hQueue⟩ := beginAborting_shared b cause s
  obtain ⟨hRaised, hCause, hState⟩ := beginAborting_offered b cause s
  have hGone := endLeak_gone b (cancelReductions b (abortRecorded b cause s))
  have hReducer' : ReducerOk (abortRecorded b cause s) := by
    refine hReducer.of_noise (fun c => ?_) rfl fun c => ?_
    · by_cases hc : c = b
      · subst hc; rw [abortRecorded_bay]
      · rw [abortRecorded_bay_other _ _ hc]
    · by_cases hc : c = b
      · subst hc; rw [State.record, abortRecorded_bay]
      · rw [State.record, abortRecorded_bay_other _ _ hc]; rfl
  rw [if_pos hOwner] at hLines
  exact {
    record := by rw [hRecord]
    drive := hDrive
    rest := ⟨hConfig, hSensor⟩
    buffers := fun k => by
      rw [beginAborting_buf cause hOne]
      unfold ListenBuffer.cancelled
      split
      · simp [ListenBuffer.freed]
      · split <;> simp_all [ListenBuffer.freed]
    reducer := by
      rw [hQueue]
      exact ⟨cancelReductions_engine .., cancelReductions_queue hReducer'⟩
    manifold := by rw [beginAborting_manifold]; exact ⟨hGone.1, hGone.2, by rw [hLeak]; rfl⟩
    vent := fun h => by rw [hRecord, hLines]; simp [sequencerLines, h]
    sealHeads := fun h => by rw [hRecord, hLines]; simp [sequencerLines, h]
    notice := ⟨hCause, hState⟩
    shared := ⟨hCell, hStore, hReports, hRaised.portsRaised⟩ }

/-! ## The wind-down examined (R67, R70, R90) -/

theorem examineWindDown_turning {d : DriveLink} (h : d.x ≠ 0 ∨ 5 < (d.latest.elim 0 (·.speed)).natAbs) : d.examineWindDown = d := by
  unfold DriveLink.examineWindDown
  split
  · refine if_neg fun hr => ?_
    have hRest : (d.latest.elim 0 (·.speed)).natAbs ≤ 5 := of_decide_eq_true hr.2
    rcases h with h | h
    · exact h hr.1
    · omega
  · rfl

theorem examineWindDown_rest {d : DriveLink} {start : Time} (h : d.windDown = .inProgress start) (hx : d.x = 0)
    (hSpeed : (d.latest.elim 0 (·.speed)).natAbs ≤ 5) : d.examineWindDown = { d with windDown := .over } := by
  unfold DriveLink.examineWindDown
  rw [h]
  exact if_pos ⟨hx, decide_eq_true hSpeed⟩

theorem examineWindDown_notInProgress {d : DriveLink} (h : ∀ start, d.windDown ≠ .inProgress start) : d.examineWindDown = d := by
  unfold DriveLink.examineWindDown
  split
  · next start hd => exact absurd hd (h start)
  · rfl

theorem settleEnding_not_over {b : BayId} {s : State} (h : (s.bay b).drive.windDown ≠ .over) : settleEnding b s = s := if_neg h

theorem settleEnding_aborting {b : BayId} {s : State} (h : (s.bay b).drive.windDown = .over) (hState : (s.record b).state = .aborting) :
    settleEnding b s = finishAborting b s := by
  unfold settleEnding; rw [if_pos h, hState]

theorem settleEnding_closing {b : BayId} {s : State} (h : (s.bay b).drive.windDown = .over) (hState : (s.record b).state = .closing)
    (hPending : (s.record b).pendingReductions = 0) : settleEnding b s = finishClosing b s := by
  unfold settleEnding; rw [if_pos h, hState]; exact if_pos hPending

theorem settleEnding_closing_pending {b : BayId} {s : State} (hState : (s.record b).state = .closing)
    (hPending : (s.record b).pendingReductions ≠ 0) : settleEnding b s = s := by
  unfold settleEnding
  by_cases hw : (s.bay b).drive.windDown = .over
  · rw [if_pos hw, hState]; exact if_neg hPending
  · exact if_neg hw

theorem mapDrive_congr {b : BayId} {f g : DriveLink → DriveLink} {s : State} (h : f (s.bay b).drive = g (s.bay b).drive) :
    mapDrive b f s = mapDrive b g s := mapBay_congr b _ _ s (by rw [h])

theorem mapDrive_eq_self {b : BayId} {f : DriveLink → DriveLink} {s : State} (h : f (s.bay b).drive = (s.bay b).drive) :
    mapDrive b f s = s := mapBay_eq_self b _ s (by rw [h])

/-- With the drive still turning nothing ends. -/
theorem examineEnding_turning {b : BayId} {s : State} (hDrive : (s.bay b).drive.examineWindDown = (s.bay b).drive)
    (h : (s.bay b).drive.windDown ≠ .over) : examineEnding b s = s := by
  rw [examineEnding, mapDrive_eq_self hDrive, settleEnding_not_over h]

/-- The wind-down of bay `b` is over, before the bay acts on it. -/
def windDownOver (b : BayId) (s : State) : State := mapDrive b (fun d => { d with windDown := .over }) s

/-- A wind-down that is over already stays so; one in progress with the drive at rest is made over. -/
theorem examineEnding_over {b : BayId} {s : State} (hWind : (s.bay b).drive.windDown ≠ .none) (h : ¬Turning b s) :
    examineEnding b s = settleEnding b (windDownOver b s) := by
  have hDrive : (s.bay b).drive.examineWindDown = { (s.bay b).drive with windDown := .over } := by
    cases hw : (s.bay b).drive.windDown with
    | none => exact absurd hw hWind
    | inProgress start =>
      have hRest : ¬((s.bay b).drive.x ≠ 0 ∨ 5 < ((s.bay b).drive.latest.elim 0 (·.speed)).natAbs) := fun e => h ⟨by simp [hw], e⟩
      rw [not_or, not_not, not_lt] at hRest
      exact examineWindDown_rest hw hRest.1 hRest.2
    | _ => rw [examineWindDown_notInProgress (by simp [hw]), ← hw]
  rw [examineEnding]
  exact congrArg (settleEnding b) (mapDrive_congr hDrive)

theorem abortDrive_facts (fromClosing : Prop) [Decidable fromClosing] (ramp : Nat) (now : Time) (d : DriveLink) :
    (abortDrive fromClosing ramp now d).x = d.x ∧ (abortDrive fromClosing ramp now d).latest = d.latest ∧
    (abortDrive fromClosing ramp now d).windDown = if fromClosing then d.windDown else .inProgress now := by
  unfold abortDrive; split <;> exact ⟨rfl, rfl, rfl⟩

theorem reportOf_windDownOver (b : BayId) (v : FinalVerdict) (cause secondary : Option Cause) (s : State) :
    reportOf b v cause secondary (windDownOver b s) = reportOf b v cause secondary s := by
  simp [reportOf, windDownOver]

theorem windDownOver_raised (b : BayId) (s : State) : Raised s (windDownOver b s) := .of_ports rfl

/-- The blocks of bay `b` besides its drive, and everything else, tell the same of FINISHED. -/
theorem FinishedWith.of_windDownOver {b : BayId} {v : FinalVerdict} {cause secondary : Option Cause} {s t : State}
    (h : FinishedWith b v cause secondary (windDownOver b s) t) : FinishedWith b v cause secondary s t := by
  obtain ⟨record, drive, watch, rest, notice, report, reference, others, tables, lastBay, otherBay, shared⟩ := h
  rw [reportOf_windDownOver] at report
  simp only [windDownOver, mapDrive_recordOf, mapDrive_bay_same] at record drive watch rest lastBay otherBay reference others
  exact ⟨record, drive, watch, rest, notice, report.congr rfl rfl rfl rfl (.refl t), reference, others, tables, lastBay, otherBay,
    shared⟩

/-- A wind-down that is over takes ABORTING into FINISHED (R70). -/
theorem examineEnding_aborting {b : BayId} {s : State} (hState : (s.record b).state = .aborting)
    (hWind : (s.bay b).drive.windDown ≠ .none) (h : ¬Turning b s) :
    examineEnding b s = finishBay b (abortVerdict (s.record b).cause (s.record b).secondary) (windDownOver b s) := by
  rw [examineEnding_over hWind h, settleEnding_aborting (by simp [windDownOver]) (by simpa [windDownOver] using hState)]
  simp [finishAborting, windDownOver]

/-- A wind-down that is over takes CLOSING with no reduction pending into FINISHED (R67, R68). -/
theorem examineEnding_closing {b : BayId} {s : State} (hState : (s.record b).state = .closing)
    (hPending : (s.record b).pendingReductions = 0) (hWind : (s.bay b).drive.windDown ≠ .none) (h : ¬Turning b s) :
    examineEnding b s = finishBay b (closingVerdict (worstOf (s.record b).results)) (windDownOver b s) := by
  rw [examineEnding_over hWind h, settleEnding_closing (by simp [windDownOver]) (by simpa [windDownOver] using hState)
    (by simpa [windDownOver] using hPending)]
  simp [finishClosing, windDownOver]

/-- With a reduction pending CLOSING only marks its wind-down over (R67). -/
theorem examineEnding_closing_pending {b : BayId} {s : State} (hState : (s.record b).state = .closing)
    (hPending : (s.record b).pendingReductions ≠ 0) (hWind : (s.bay b).drive.windDown ≠ .none) (h : ¬Turning b s) :
    examineEnding b s = windDownOver b s := by
  rw [examineEnding_over hWind h, settleEnding_closing_pending (by simpa [windDownOver] using hState)
    (by simpa [windDownOver] using hPending)]

theorem abortVerdict_of_cause (c : Cause) (secondary : Option Cause) :
    abortVerdict (some c) secondary = if secondary = none ∧ c.isCommand = true then .aborted else .fault := by
  cases secondary with
  | none => simp [abortVerdict]
  | some f => simp [abortVerdict]

/-- A bay under the sequencer takes an abort (R20, R70, R90). -/
theorem enterAborting_taken {b : BayId} (cause : Cause) {s : State} (hReducer : ReducerOk s)
    (hOne : ¬((s.buf b .a0).state = .acquiring ∧ (s.buf b .a1).state = .acquiring)) (hOwner : (s.record b).owner = .sequencer)
    (hWind : (s.bay b).drive.windDown ≠ .none ↔ (s.record b).state = .closing) :
    AbortTaken b cause s (enterAborting b cause s) := by
  have hEntered := beginAborting_entered cause hReducer hOne hOwner
  obtain ⟨n, l, hRecord, -⟩ := beginAborting_record b cause s
  obtain ⟨-, hDrive, -⟩ := beginAborting_blocks b cause s
  obtain ⟨hX, hLatest, hWind'⟩ := abortDrive_facts ((s.record b).state = .closing) s.cell.stopRamp s.now (s.bay b).drive
  rw [← hDrive] at hX hLatest hWind'
  have hTurning : Turning b (beginAborting b cause s) ↔ Turning b s := by
    unfold Turning
    rw [hX, hLatest, hWind']
    by_cases hc : (s.record b).state = .closing
    · rw [if_pos hc]
    · have hNone : (s.bay b).drive.windDown = .none := not_not.mp (mt hWind.mp hc)
      simp [hc, hNone]
  rw [enterAborting_eq]
  refine ⟨fun h => ?turning, fun h => ?rest⟩
  case turning =>
    have h' := hTurning.mpr h
    rwa [examineEnding_turning (examineWindDown_turning h'.2) h'.1]
  case rest =>
    have hStarted : ((beginAborting b cause s).bay b).drive.windDown ≠ .none := by
      rw [hWind']
      split
      · next hc => exact hWind.mpr hc
      · simp
    have hOver : examineEnding b (beginAborting b cause s) = _ :=
      examineEnding_aborting (by rw [hRecord]) hStarted (mt hTurning.mp h)
    have hFinished := (finishBay_finishedWith b (abortVerdict (some cause) (s.record b).secondary)
      (windDownOver b (beginAborting b cause s))).of_windDownOver
    rw [hOver, hRecord]
    simp only [windDownOver, mapDrive_recordOf, hRecord] at hFinished
    rw [abortVerdict_of_cause] at hFinished ⊢
    refine ⟨?_, beginAborting b cause s, hEntered, hFinished⟩
    exact hEntered.notice.1.raised ((windDownOver_raised ..).trans
      ((leavePlan_raised ..).trans (finishBay_raised ..)))

end Sys2Proof.Machine
end

section
/-! PROOF. The body of every command and its answer (R9, R168, R169), and the commands of a bay in manual and under test. -/

namespace Sys2Proof.Machine

/-! ## The body of a command -/

/-- What a command does at its owning block on a port that carries it; an event has no body. -/
def bodyOf : Instr → State → Reply
  | .nop _ => runNop
  | .nextNotice p => runNextNotice p
  | .setNoticeMask p mask => runSetNoticeMask p mask
  | .setNoticeInterval p ms => runSetNoticeInterval p ms
  | .present _ n serial code => onBay n (runPresent serial code)
  | .handover _ n => onBay n runHandover
  | .withdraw _ n => onBay n runWithdraw
  | .release _ n => onBay n runRelease
  | .setLines p n mask => onBay n (runWriteLines p mask true)
  | .clearLines p n mask => onBay n (runWriteLines p mask false)
  | .readBay _ n => onBay n runReadBay
  | .cellRun _ => runCellRun
  | .cellStop _ => runCellStop
  | .clearTables _ => runClearTables
  | .setCell _ ramp threshold => runSetCell ramp threshold
  | .configureBay _ n speed width angle m => onBay n (runConfigureBay (clampedConfig speed width angle m))
  | .openPlan _ n => onPlan n (runOpenPlan n)
  | .writeStep _ n k r => onPlan n (runWriteStep n k r)
  | .publishPlan _ n head flag => onPlan n (runPublishPlan n head flag)
  | .discardPlan _ n => onPlan n (runDiscardPlan n)
  | .retirePlan _ n => onPlan n (runRetirePlan n)
  | .readStep _ k => runReadStep k
  | .readPlan _ n => onPlan n (runReadPlan n)
  | .writeVariant _ code n cells => runWriteVariant code n cells
  | .deleteVariant _ code => runDeleteVariant code
  | .readVariant _ code start => runReadVariant code start
  | .writeCell _ i v => runWriteCell i v
  | .readCell _ i => runReadCell i
  | .hold _ n => onBay n runHold
  | .resume _ n => onBay n runResume
  | .abort _ n => onBay n runAbort
  | .takeManual _ n => onBay n runTakeManual
  | .returnManual _ n => onBay n runReturnManual
  | .jog _ n speed => onBay n (runJog speed)
  | .readLive _ n => onBay n runReadLive
  | .peekReport _ offset length => runPeekReport offset length
  | .takeReport _ n => runTakeReport n
  | .queueStatus _ => runQueueStatus
  | .powerOnReset | .millisecondTick _ | .driveReport _ _ _ _ _ _ | .driveLost _ | .rampTimeout _ | .dwellEnd _
  | .windDownExpiry _ | .holdExpired _ | .pressureWord _ _ | .temperatureWord _ _ | .vibrationWord _ _
  | .foreignTagWord _ _ | .wordBreak _ | .silencePurge _ _ | .pressureLoss _ | .temperatureLoss _
  | .acquisitionTimeout _ | .reductionComplete | .fillLimitExpiry _ | .settleEnd _ | .measureEnd _
  | .ventLimitExpiry _ | .inputLineChange _ _ _ | .quietTimerExpiry _ | .transferStart _ | .requestTaken _ _ _
  | .responseReady _ => accept []

/-- Every command is served at its port with its body. -/
theorem exec_command {i : Instr} {p : PortId} (h : portOf i = some p) (s : State) : exec i s = .next (serve p i (bodyOf i) s) := by
  cases i <;> cases h <;> rfl

/-- A dispatched command is executed as its own row executes it. -/
theorem runCommand_command {i : Instr} {p : PortId} (h : portOf i = some p) (s : State) : runCommand i s = serve p i (bodyOf i) s := by
  cases i <;> cases h <;> rfl

theorem runCommand_event {i : Instr} (h : portOf i = none) (s : State) : runCommand i s = s := by
  cases i <;> first | rfl | cases h

theorem serve_foreign {p : PortId} {i : Instr} (body : State → Reply) (s : State) (h : p ∉ carriedOn i) :
    serve p i body s = answered p i .wrongPort [] s := by
  simp only [serve, if_neg h]; rfl

/-- The answer of a command on a port that carries it is its body's. -/
theorem exec_carried {i : Instr} {p : PortId} {s : State} {r : Reply} (hPort : portOf i = some p) (hCarried : p ∈ carriedOn i)
    (h : bodyOf i s = r) : exec i s = .next (answered p i r.status r.payload r.state) := by
  subst h
  rw [exec_command hPort, serve_carried _ _ hCarried]

theorem exec_refused {i : Instr} {p : PortId} {s : State} {st : Status} (hPort : portOf i = some p) (hCarried : p ∈ carriedOn i)
    (h : bodyOf i s = refuse st s) : exec i s = .next (answered p i st [] s) := exec_carried hPort hCarried h

theorem exec_accepted {i : Instr} {p : PortId} {s t : State} {payload : List Byte} (hPort : portOf i = some p)
    (hCarried : p ∈ carriedOn i) (h : bodyOf i s = accept payload t) : exec i s = .next (answered p i .ok payload t) :=
  exec_carried hPort hCarried h

theorem onBay_valid {n : Nat} {b : BayId} (f : BayId → State → Reply) (s : State) (h : bayOfCode n = some b) : onBay n f s = f b s := by
  simp [onBay, h]

theorem onBay_invalid {n : Nat} (f : BayId → State → Reply) (s : State) (h : bayOfCode n = none) :
    onBay n f s = refuse .badArgument s := by
  simp [onBay, h]

theorem bayOfCode_eq_none {n : Nat} (h : 3 < n) : bayOfCode n = none := by
  match n, h with
  | n + 4, _ => rfl

theorem mem_carriedOn_linePair {i : Instr} {p : PortId} (h : carriedOn i = [.line, .cell]) : p ∈ carriedOn i ↔ p = .line ∨ p = .cell := by
  simp [h]

/-! ## SET CELL (R4) -/

/-- Settles O45. -/
theorem setCellClampsAndStores : Obligations.SetCellClampsAndStores := by
  intro s ramp threshold
  exact exec_accepted rfl (List.mem_singleton.mpr rfl) rfl

/-! ## SET LINES and CLEAR LINES (R9, R23, R24) -/

theorem linesByte_toNat (l : ActuatorLines) : (linesByte l).toNat = (if l.clamp then 1 else 0) + (if l.couple then 2 else 0) +
    (if l.sealHeads then 4 else 0) + (if l.fill then 8 else 0) + (if l.vent then 16 else 0) := by
  obtain ⟨clamp, couple, sealHeads, fill, vent⟩ := l
  cases clamp <;> cases couple <;> cases sealHeads <;> cases fill <;> cases vent <;> rfl

theorem mayWriteLines_iff {p : PortId} (hp : p = .line ∨ p = .cell) (o : Owner) :
    mayWriteLines p o = true ↔ o = if p = .line then .line else .cell := by
  obtain rfl | rfl := hp <;> simp [mayWriteLines]

theorem runWriteLines_reserved {p : PortId} {mask : BitVec 8} (v : Bool) (b : BayId) (s : State) (h : mask.getLsbD 3 = true) :
    runWriteLines p mask v b s = refuse .lineReserved s := if_pos h

theorem runWriteLines_owned {p : PortId} {mask : BitVec 8} (v : Bool) {b : BayId} {s : State} (h : mask.getLsbD 3 = false)
    (ho : mayWriteLines p (s.record b).owner = false) : runWriteLines p mask v b s = refuse .owned s :=
  (if_neg (Bool.eq_false_iff.mp h)).trans (if_pos ho)

theorem runWriteLines_written {p : PortId} {mask : BitVec 8} (v : Bool) {b : BayId} {s : State} (h : mask.getLsbD 3 = false)
    (ho : mayWriteLines p (s.record b).owner = true) : runWriteLines p mask v b s =
      accept [linesByte (writeLines mask v (s.record b).lines)]
        (mapRecord b (fun r => { r with lines := writeLines mask v (s.record b).lines }) s) := by
  have hWritten : mapRecord b (fun r => { r with lines := writeLines mask v r.lines }) s =
      mapRecord b (fun r => { r with lines := writeLines mask v (s.record b).lines }) s := mapBay_congr b _ _ s rfl
  rw [runWriteLines, if_neg (Bool.eq_false_iff.mp h), if_neg (by simp [ho])]
  simp only [hWritten, mapRecord_recordOf_same]

/-- Settles O52. -/
theorem lineCommandsWriteNamedLines : Obligations.LineCommandsWriteNamedLines := by
  intro b n mask p s hb hp v i hi
  have hPort : portOf i = some p := by subst hi; cases v <;> rfl
  have hCarried : p ∈ carriedOn i := by
    subst hi
    cases v <;> exact (mem_carriedOn_linePair rfl).mpr hp
  have hBody : bodyOf i s = runWriteLines p mask v b s := by
    subst hi
    cases v <;> exact onBay_valid _ s hb
  have hMay := mayWriteLines_iff hp (s.record b).owner
  refine ⟨fun h => ?reserved, fun h ho => ?owned, fun h ho => ⟨writeLines mask v (s.record b).lines, ?written, rfl, rfl, rfl, rfl, rfl,
    linesByte_toNat _⟩⟩
  case reserved => exact exec_refused hPort hCarried (hBody.trans (runWriteLines_reserved v b s h))
  case owned =>
    exact exec_refused hPort hCarried (hBody.trans (runWriteLines_owned v h (Bool.eq_false_iff.mpr (mt hMay.mp ho))))
  case written => exact exec_accepted hPort hCarried (hBody.trans (runWriteLines_written v h (hMay.mpr ho)))

/-! ## HOLD and RESUME (R16, R17, R56) -/

theorem enterHeld_eq (b : BayId) (point : HoldPoint) (s : State) : enterHeld b point s = raise (.bayState b) (mapRecord b (fun r =>
    { r with state := .held, holdRequest := false, holdStart := some s.now, holdPoint := some point, phase := .none }) s) :=
  congrArg (raise _) (mapBay_mapBay b _ _ s)

theorem resumeBay_before {b : BayId} {s : State} {k : Nat} (hPoint : (s.record b).holdPoint = some .before)
    (hSlot : (s.record b).slot = some k) : resumeBay b s = boundary b k (raise (.bayState b) (mapRecord b (fun r =>
      { r with state := .running, holdStart := none, holdPoint := none, holdRequest := false }) s)) := by
  simp only [resumeBay, hPoint, hSlot, Option.getD_some]
  exact congrArg (fun t => boundary b k (raise _ t)) (mapBay_mapBay b _ _ s)

theorem resumeBay_after {b : BayId} {s : State} {k : Nat} {o : OwnedStep} (hPoint : (s.record b).holdPoint = some .after)
    (hSlot : (s.record b).slot = some k) (hOwned : s.store.slotAt k = some o) :
    resumeBay b s = boundary b o.record.next (raise (.bayState b) (mapRecord b (fun r =>
      { r with state := .running, holdStart := none, holdPoint := none, holdRequest := false }) s)) := by
  simp only [resumeBay, hPoint, nextLink, hSlot, hOwned, Option.elim_some]
  exact congrArg (fun t => boundary b _ (raise _ t)) (mapBay_mapBay b _ _ s)

/-- Settles O50. -/
theorem holdAndResumeAct : Obligations.HoldAndResumeAct := by
  intro b n s hb r hold resume
  have hHold : bodyOf hold s = runHold b s := onBay_valid _ s hb
  have hResume : bodyOf resume s = runResume b s := onBay_valid _ s hb
  have hCarried : ∀ i, i = hold ∨ i = resume → .cell ∈ carriedOn i := by
    rintro i (rfl | rfl) <;> exact List.mem_singleton.mpr rfl
  have held : ∀ {st payload t}, runHold b s = ⟨st, payload, t⟩ → exec hold s = .next (answered .cell hold st payload t) := fun h =>
    exec_carried rfl (hCarried _ (.inl rfl)) (hHold.trans h)
  have resumed : ∀ {st payload t}, runResume b s = ⟨st, payload, t⟩ → exec resume s = .next (answered .cell resume st payload t) :=
    fun h => exec_carried rfl (hCarried _ (.inr rfl)) (hResume.trans h)
  refine ⟨fun h hp => held ?_, fun h hp => held ?_, fun h => held ?_, fun h => held ?_, fun h1 h2 h3 => held ?_, fun h => resumed ?_,
    fun h1 h2 => resumed ?_, fun h => ?held⟩
  · simp only [runHold, show (s.record b).state = _ from h, if_pos (show (s.record b).phase = _ from hp), enterHeld_eq]; rfl
  · simp only [runHold, show (s.record b).state = _ from h, if_neg (show (s.record b).phase ≠ _ from hp)]; rfl
  · simp only [runHold, show (s.record b).state = _ from h]; rfl
  · simp only [runHold, show (s.record b).state = _ from h]; rfl
  · unfold runHold
    split
    · exact absurd ‹_› h1
    · exact absurd ‹_› h2
    · exact absurd ‹_› h3
    · rfl
  · simp only [runResume, show (s.record b).state = _ from h]; rfl
  · unfold runResume
    split
    · exact absurd ‹_› h2
    · exact absurd ‹_› h1
    · rfl
  case held =>
    intro u
    refine ⟨fun k hPoint hSlot => resumed ?_, fun k o hPoint hSlot hOwned => resumed ?_⟩
    · simp only [runResume, show (s.record b).state = _ from h, resumeBay_before hPoint hSlot]; rfl
    · simp only [runResume, show (s.record b).state = _ from h, resumeBay_after hPoint hSlot hOwned]; rfl

end Sys2Proof.Machine
end

section
/-! PROOF. The commands of a bay outside its test and in manual, and the commands of Cell Control (R1 to R6, R9 to R15, R27, R28, R92,
R93). -/

namespace Sys2Proof.Machine

/-- The answer of a command of a bay on a port that carries it. -/
theorem exec_onBay {i : Instr} {p : PortId} {n : Nat} {b : BayId} {s : State} {f : BayId → State → Reply} {r : Reply}
    (hPort : portOf i = some p) (hCarried : p ∈ carriedOn i) (hBody : bodyOf i = onBay n f) (hb : bayOfCode n = some b)
    (h : f b s = r) : exec i s = .next (answered p i r.status r.payload r.state) :=
  exec_carried hPort hCarried (by rw [hBody, onBay_valid _ s hb, h])

/-! ## A notice raised twice (R174) -/

theorem insertNotice_insertNotice (n : Notice) (l : List Notice) : insertNotice n (insertNotice n l) = insertNotice n l := by
  induction l with
  | nil => simp [insertNotice]
  | cons m ms ih =>
    by_cases hm : n = m
    · simp [insertNotice, hm]
    · by_cases hk : n.key < m.key
      · simp [insertNotice, hm, hk]
      · simp [insertNotice, hm, hk, ih]

theorem Port.offer_offer (n : Notice) (p : Port) : (p.offer n).offer n = p.offer n := by
  unfold Port.offer
  by_cases h : unmasked p.mask n = true
  · simp [h, Port.refreshNtf, insertNotice_insertNotice]
  · simp [h]

/-- A pair that is pending already is absorbed. -/
theorem raise_raise (n : Notice) (s : State) : raise n (raise n s) = raise n s := by
  simp only [raise, Port.offer_offer]

/-- A change of bays and notices commute. -/
theorem mapRecord_raise (b : BayId) (f : BayRecord → BayRecord) (n : Notice) (s : State) :
    mapRecord b f (raise n s) = raise n (mapRecord b f s) := rfl

theorem mapRecord_mapRecord (b : BayId) (f g : BayRecord → BayRecord) (s : State) :
    mapRecord b f (mapRecord b g s) = mapRecord b (fun r => f (g r)) s := mapBay_mapBay b _ _ s

/-! ## A diverted axle (R12, R13, R154) -/

theorem Bay.eq_with_record {x y : Bay} (hConfig : y.config = x.config) (hDrive : y.drive = x.drive) (hSensor : y.sensor = x.sensor)
    (hNoise : y.noise = x.noise) (hLeak : y.leak = x.leak) : y = { x with record := y.record } := by
  cases x; cases y; cases hConfig; cases hDrive; cases hSensor; cases hNoise; cases hLeak; rfl

theorem handReport_bay_same (b : BayId) (rep : Report) (s : State) :
    (handReport b rep s).bay b = { s.bay b with record := (handReport b rep s).record b } :=
  Bay.eq_with_record (handReport_config ..) (handReport_drive ..) (handReport_sensor ..) (handReport_noise ..) (handReport_leak ..)

/-- A state that shares the other blocks differs only in bays, reports and ports. -/
theorem eq_with_bays_reports_ports {s t : State} (hCell : t.cell = s.cell) (hStore : t.store = s.store)
    (hReducer : t.reducer = s.reducer) (hManifold : t.manifold = s.manifold) (hPending : t.pending = s.pending) :
    t = { s with bays := t.bays, reports := t.reports, ports := t.ports } := by
  rw [← hCell, ← hStore, ← hReducer, ← hManifold, ← hPending]

/-- The bay of a diverted axle before its report is handed over. -/
def diverted (b : BayId) (cause : Cause) (s : State) : State :=
  setBayState b .finished (mapRecord b (fun r => { r with cause := some cause }) s)

theorem divertBay_eq (b : BayId) (cause : Cause) (s : State) :
    divertBay b cause s = handReport b (buildReport b .diverted (diverted b cause s)) (diverted b cause s) := rfl

theorem diverted_record (b : BayId) (cause : Cause) (s : State) :
    (diverted b cause s).record b = { s.record b with state := .finished, cause := some cause } := by
  simp [diverted]

theorem diverted_bay (b : BayId) (cause : Cause) (s : State) : (diverted b cause s).bay b = { s.bay b with record :=
    { s.record b with state := .finished, cause := some cause } } := by
  simp [diverted, setBayState, State.record]

theorem divertBay_bay (b : BayId) (cause : Cause) (s : State) : (divertBay b cause s).bay b = { s.bay b with record :=
    { s.record b with
      state := .finished, cause := some cause, reportStatus := ((divertBay b cause s).record b).reportStatus } } := by
  rw [divertBay_eq, handReport_bay_same, handReport_record, if_pos rfl, diverted_bay, diverted_record]

theorem divertBay_shared (b : BayId) (cause : Cause) (s : State) : divertBay b cause s =
    { s with bays := (divertBay b cause s).bays, reports := (divertBay b cause s).reports, ports := (divertBay b cause s).ports } := by
  apply eq_with_bays_reports_ports <;> simp [divertBay_eq, diverted]

theorem divertBay_raised (b : BayId) (cause : Cause) (s : State) : Raised s (divertBay b cause s) := by
  have hDiverted : Raised s (diverted b cause s) := by
    refine Raised.trans ?_ (setBayState_raised ..)
    exact .of_ports rfl
  exact hDiverted.trans (handReport_raised ..)

theorem divertBay_offered (b : BayId) (cause : Cause) (s : State) : Offered (.bayState b) (divertBay b cause s) := by
  rw [divertBay_eq]
  exact (offered_raise _ _).raised (handReport_raised ..)

theorem divertBay_taken (b : BayId) (cause : Cause) (s : State) :
    ReportTaken b (reportOf b .diverted (some cause) (s.record b).secondary s) s (divertBay b cause s) := by
  have hReport : buildReport b .diverted (diverted b cause s) = reportOf b .diverted (some cause) (s.record b).secondary s := by
    simp only [buildReport, reportOf, diverted_record]
    rfl
  rw [divertBay_eq, hReport]
  exact (handReport_taken _ _ (diverted b cause s)).congr rfl rfl rfl rfl (.refl _)

/-! ## WITHDRAW and RELEASE (R13 to R15) -/

/-- RELEASE of an axle that is gone passes UNLOADING in one event. -/
theorem enterEmpty_unloading (b : BayId) (s : State) :
    enterEmpty b (setBayState b .unloading s) = raise (.bayState b) (mapRecord b BayRecord.cleared s) := by
  simp only [enterEmpty, setBayState, mapRecord_raise, raise_raise, mapRecord_mapRecord]
  rfl

/-- Settles O51. -/
theorem withdrawAndReleaseAct : Obligations.WithdrawAndReleaseAct := by
  intro b n s hb r w l
  have withdrawn : ∀ {st payload t}, runWithdraw b s = ⟨st, payload, t⟩ → exec w s = .next (answered .line w st payload t) :=
    exec_onBay rfl (List.mem_singleton.mpr rfl) rfl hb
  have released : ∀ {st payload t}, runRelease b s = ⟨st, payload, t⟩ → exec l s = .next (answered .line l st payload t) :=
    exec_onBay rfl (List.mem_singleton.mpr rfl) rfl hb
  refine ⟨fun ho => withdrawn (if_pos ho), fun ho h => withdrawn ((if_neg ho).trans ?refused),
    fun ho h => ⟨divertBay b .withdrawn s, withdrawn ((if_neg ho).trans ?diverted), divertBay_bay .., divertBay_shared ..,
      (divertBay_raised ..).portsRaised, divertBay_offered _ _ _, divertBay_taken ..⟩,
    fun h => released (if_pos h), fun h h' => released ((if_neg (not_not.mpr h)).trans (if_pos h')), fun h h' => ?released⟩
  case refused =>
    obtain h | h | h := h <;> (rw [show (s.record b).state = _ from h]; rfl)
  case diverted =>
    rw [show (s.record b).state = _ from h]; rfl
  case released =>
    have hRun : runRelease b s = accept [] (if (s.record b).inputs.pres then setBayState b .unloading s
        else enterEmpty b (setBayState b .unloading s)) := (if_neg (not_not.mpr h)).trans (if_neg (not_not.mpr h'))
    refine ⟨fun hp => released (hRun.trans ?_), fun hp => released (hRun.trans ?_)⟩
    · rw [if_pos hp]; rfl
    · rw [if_neg (Bool.eq_false_iff.mp hp), enterEmpty_unloading]; rfl

/-! ## Manual operation (R27, R28, R92) -/

theorem DriveLink.manualEnable_moving {d : DriveLink} (h : d.jogTarget ≠ 0 ∨ d.x ≠ 0) : d.manualEnable = { d with enable := true } := by
  have : (decide (d.jogTarget ≠ 0) || decide (d.x ≠ 0)) = true := by simpa using h
  unfold DriveLink.manualEnable DriveLink.setEnable
  exact if_pos this

theorem DriveLink.manualEnable_rest {d : DriveLink} (hJog : d.jogTarget = 0) (hx : d.x = 0) : d.manualEnable =
    { d with enable := false, missed := 0, lostGiven := false } := by
  simp [DriveLink.manualEnable, DriveLink.setEnable, hJog, hx]

theorem jogSpeed_natAbs (limit : Nat) (v : Int) : (jogSpeed limit v).natAbs = min v.natAbs (min 300 limit) := by
  unfold jogSpeed clamp
  split_ifs <;> omega

theorem jogSpeed_pos_iff {limit : Nat} {v : Int} (h : 1 ≤ limit) : 0 < jogSpeed limit v ↔ 0 < v := by
  unfold jogSpeed clamp
  split_ifs <;> omega

theorem jogSpeed_ne_zero {limit : Nat} {v : Int} (h : 1 ≤ limit) (hv : v ≠ 0) : jogSpeed limit v ≠ 0 := by
  have := jogSpeed_natAbs limit v
  omega

theorem startJog_eq {b : BayId} {v : Int} (s : State) (hv : v ≠ 0) : startJog b v s =
    mapDrive b (fun d => { d with jogTarget := v, target := v, rampRate := 200, enable := true }) s :=
  mapDrive_congr (DriveLink.manualEnable_moving (.inl hv))

theorem atRest_iff (d : DriveLink) : d.atRest = true ↔ (d.latest.elim 0 (·.speed)).natAbs ≤ 5 := decide_eq_true_iff

theorem driveFaulted_iff (d : DriveLink) : driveFaulted d = true ↔ ∃ rep, d.latest = some rep ∧ rep.state = .fault := by
  unfold driveFaulted
  cases d.latest <;> simp

/-- Settles O53. -/
theorem manualCommandsAct : Obligations.ManualCommandsAct := by
  intro b n s hb r d take back
  have taken : ∀ {st payload t}, runTakeManual b s = ⟨st, payload, t⟩ → exec take s = .next (answered .cell take st payload t) :=
    exec_onBay rfl (List.mem_singleton.mpr rfl) rfl hb
  have returned : ∀ {st payload t}, runReturnManual b s = ⟨st, payload, t⟩ → exec back s = .next (answered .cell back st payload t) :=
    exec_onBay rfl (List.mem_singleton.mpr rfl) rfl hb
  have hRest := atRest_iff (s.bay b).drive
  refine ⟨fun h ho => taken ((if_pos h).trans ?_), fun h ho => taken ((if_pos h).trans ?_), fun h1 h2 => taken (if_neg (by tauto)),
    fun ho => returned (if_pos ho), fun ho hd => returned ((if_neg (not_not.mpr ho)).trans (if_neg ?_)),
    fun ho hj hs => returned ((if_neg (not_not.mpr ho)).trans ((if_pos ⟨hj, hRest.mpr hs⟩).trans rfl)), ?jog⟩
  · rw [show (s.record b).owner = _ from ho]; rfl
  · rw [show (s.record b).owner = _ from ho]; rfl
  · rw [hRest]
    rintro ⟨hJog, hSpeed⟩
    rcases hd with h | h
    · exact h hJog
    · exact absurd hSpeed (not_le.mpr h)
  case jog =>
    intro v jog
    have jogged : ∀ {st payload t}, runJog v b s = ⟨st, payload, t⟩ → exec jog s = .next (answered .cell jog st payload t) :=
      exec_onBay rfl (List.mem_singleton.mpr rfl) rfl hb
    refine ⟨fun ho => jogged (if_pos ho), fun ho hv => ?_⟩
    have hRun : runJog v b s = _ := (if_neg (not_not.mpr ho)).trans (if_neg hv)
    refine ⟨fun hg => jogged (hRun.trans (if_pos hg)), fun rep hg hl hf => jogged (hRun.trans ((if_neg ?_).trans (if_pos ?_))),
      fun hg hl hc => ?_⟩
    · exact fun e => by rw [show (s.bay b).record.inputs.grd = true from hg] at e; cases e
    · exact (driveFaulted_iff _).mpr ⟨rep, hl, hf⟩
    · have hLimit : 1 ≤ (s.bay b).config.speedLimit := le_trans (by decide) hc.speed.1
      have hSound : ¬driveFaulted (s.bay b).drive = true := fun h => by
        obtain ⟨rep, hr, hf⟩ := (driveFaulted_iff _).mp h
        exact hl rep hr hf
      have hw := jogSpeed_ne_zero hLimit hv
      refine ⟨_, hw, jogSpeed_natAbs _ v, jogSpeed_pos_iff hLimit, ?_⟩
      have hGuard : ¬(s.record b).inputs.grd = false := by
        rw [show (s.record b).inputs.grd = true from hg]; decide
      rw [← startJog_eq s hw]
      exact jogged (hRun.trans ((if_neg hGuard).trans (if_neg hSound)))

/-! ## CELL RUN, CELL STOP and CLEAR TABLES (R1, R2, R5, R33) -/

theorem exec_body {i : Instr} {p : PortId} {s : State} {f : State → Reply} {r : Reply} (hPort : portOf i = some p)
    (hCarried : p ∈ carriedOn i) (hBody : bodyOf i = f) (h : f s = r) :
    exec i s = .next (answered p i r.status r.payload r.state) :=
  exec_carried hPort hCarried (by rw [hBody, h])

theorem commonAt_reset {i : Nat} (h : i ≤ 63) : PlanStore.reset.commonAt i = if i < 56 then 0 else 1 := by
  have hi : i < 64 := by omega
  simp [PlanStore.commonAt, PlanStore.reset, commonReset, hi]

theorem slotAt_reset (k : Nat) : PlanStore.reset.slotAt k = none := by
  unfold PlanStore.slotAt PlanStore.reset
  by_cases h : k < Config.slotCount
  · simp [h]
  · simp [h]

theorem entry_cleared (st : PlanStore) {n : Nat} (hn : isPlanNumber n = true) : st.cleared.entry n = (st.entry n).emptied := by
  have h := isPlanNumber_iff.mp hn
  have hlt : n - 1 < 16 := by omega
  simp [PlanStore.entry, PlanStore.cleared, hn, hlt]

/-- Settles O44. -/
theorem cellCommandsAct : Obligations.CellCommandsAct := by
  intro s
  have run : ∀ {st payload t}, runCellRun s = ⟨st, payload, t⟩ → exec (.cellRun .cell) s = .next (answered .cell _ st payload t) :=
    exec_body rfl (List.mem_singleton.mpr rfl) rfl
  have stop : ∀ {st payload t}, runCellStop s = ⟨st, payload, t⟩ → exec (.cellStop .cell) s = .next (answered .cell _ st payload t) :=
    exec_body rfl (List.mem_singleton.mpr rfl) rfl
  have clear : ∀ {st payload t}, runClearTables s = ⟨st, payload, t⟩ →
      exec (.clearTables .cell) s = .next (answered .cell _ st payload t) := exec_body rfl (List.mem_singleton.mpr rfl) rfl
  refine ⟨fun h => run ?_, fun h => run ?_, fun h hs => stop ?_, fun b h hb => stop ?_, fun h => stop ?_, fun h => clear (if_neg h),
    fun h => ⟨s.store.cleared, clear (if_pos h), slotAt_reset, rfl, fun n hn => entry_cleared _ hn, fun i hi => ?_, fun i hi => ?_⟩⟩
  · simp only [runCellRun, if_neg h]; rfl
  · simp only [runCellRun, h, if_true, cellStateBytes]; rfl
  · simp only [runCellStop, if_pos h, anySequenced_eq_false_iff.mpr hs]; rfl
  · simp only [runCellStop, if_pos h, anySequenced_iff.mpr ⟨b, hb⟩]; rfl
  · simp only [runCellStop, if_neg h, cellStateBytes]
    cases hc : s.cell.state with
    | running => exact absurd hc h
    | stopped => rfl
    | stopping => rfl
  · exact (commonAt_reset (by omega)).trans (if_pos (by omega))
  · have := isCountdown_iff.mp hi
    exact (commonAt_reset (by omega)).trans (if_neg (by omega))

/-! ## CONFIGURE BAY and PRESENT (R6, R7, R10) -/

theorem clampedConfig_eq (speed width angle : Nat) (m : FunctionMap) :
    clampedConfig speed width angle m = ⟨max 100 (min 3000 speed), max 12 (min 16 width), min 63 angle, m⟩ := by
  have hClamp : ∀ lo hi v : Nat, lo ≤ hi → clampNat lo hi v = max lo (min hi v) := fun lo hi v h => by
    unfold clampNat; split_ifs <;> omega
  simp only [clampedConfig, hClamp 100 3000 speed (by omega), hClamp 12 16 width (by omega), hClamp 0 63 angle (by omega), Nat.zero_max]

/-- Settles O46. -/
theorem configureAndPresentAct : Obligations.ConfigureAndPresentAct := by
  refine ⟨fun p n i s hn hc hi => ?badBay, fun b n s hb => ⟨fun speed width angle m => ?configure, fun serial code => ?present⟩⟩
  case badBay =>
    have refused : ∀ f, portOf i = some p → bodyOf i = onBay n f → exec i s = .next (answered p i .badArgument [] s) :=
      fun f hPort hBody => exec_refused hPort hc (by rw [hBody, onBay_invalid _ s (bayOfCode_eq_none hn)])
    obtain ⟨serial, code, rfl⟩ | rfl | rfl | rfl | ⟨mask, rfl | rfl⟩ | rfl | ⟨speed, width, angle, m, rfl⟩ | rfl | rfl | rfl | rfl |
      rfl | ⟨speed, rfl⟩ | rfl := hi <;> exact refused _ rfl rfl
  case configure =>
    intro i c
    have hConfig : clampedConfig speed width angle m = c := clampedConfig_eq ..
    have configured : ∀ {st payload t}, runConfigureBay (clampedConfig speed width angle m) b s = ⟨st, payload, t⟩ →
        exec i s = .next (answered .cell i st payload t) := exec_onBay rfl (List.mem_singleton.mpr rfl) rfl hb
    rw [hConfig] at configured
    exact ⟨fun h1 h2 => configured (if_pos ⟨h1, h2⟩), fun h => configured (if_neg (by tauto))⟩
  case present =>
    intro i
    have presented : ∀ {st payload t}, runPresent serial code b s = ⟨st, payload, t⟩ →
        exec i s = .next (answered .line i st payload t) := exec_onBay rfl (List.mem_singleton.mpr rfl) rfl hb
    refine ⟨fun h => presented (if_pos ?_), fun h1 h20 hCode => ?_⟩
    · obtain rfl | h := h
      · exact .inl (by decide)
      · exact .inr (.inl h)
    · have hRun : runPresent serial code b s = _ := if_neg (by omega)
      refine ⟨fun ho => presented (hRun.trans (if_pos ho)), fun ho h => presented (hRun.trans ((if_neg ho).trans (if_pos h))),
        fun ho h hp => presented (hRun.trans ((if_neg ho).trans ((if_neg (not_not.mpr h)).trans (if_pos hp)))), fun ho h hp =>
        presented (hRun.trans ((if_neg ho).trans ((if_neg (not_not.mpr h)).trans ((if_neg (by simp [hp])).trans ?_))))⟩
      exact congrArg (fun t => accept [] (raise _ t)) (mapRecord_mapRecord ..)

end Sys2Proof.Machine
end

section
/-! PROOF. The commands of the Plan Store besides publication: plans opened, steps, variants and cells written and read (R29 to R34,
R40 to R45). -/

namespace Sys2Proof.Machine

/-! ## A slot written (R29) -/

theorem PlanStore.slotAt_setSlot (st : PlanStore) {k : Nat} (v : Option OwnedStep) (hk : k < 255) (j : Nat) :
    (st.setSlot k v).slotAt j = if j = k then v else st.slotAt j := by
  by_cases hj : j = k
  · subst hj
    simp [slotAt, setSlot, hk]
  · by_cases h : j < 255
    · simp [slotAt, setSlot, h, hj, Ne.symm hj]
    · simp [slotAt, setSlot, h, hj]

theorem PlanStore.freeCount_setSlot_some (st : PlanStore) {k : Nat} (o : OwnedStep) (hk : k < 255) :
    (st.setSlot k (some o)).freeCount = if st.slotAt k = none then st.freeCount - 1 else st.freeCount := by
  have hSlot : st.slotAt k = st.slots[k] := by simp [slotAt, hk]
  have hCount := List.countP_set (p := Option.isNone) (l := st.slots.toList) (i := k) (a := some o) (by simp [hk])
  have hList : (st.setSlot k (some o)).slots.toList = st.slots.toList.set k (some o) := by
    simp [setSlot, Vector.setIfInBounds]
    rfl
  rw [freeCount, hList, hCount, hSlot]
  cases hs : st.slots[k] with
  | none => simp [hs, freeCount]
  | some o' => simp [hs, freeCount]

/-! ## OPEN PLAN and WRITE STEP (R30, R31, R34) -/

theorem exec_onPlan {i : Instr} {p : PortId} {n : Nat} {s : State} {f : State → Reply} {r : Reply}
    (hPort : portOf i = some p) (hCarried : p ∈ carriedOn i) (hBody : bodyOf i = onPlan n f) (hn : isPlanNumber n = true)
    (h : f s = r) : exec i s = .next (answered p i r.status r.payload r.state) :=
  exec_carried hPort hCarried (by rw [hBody, onPlan_valid _ s hn, h])

theorem exec_offPlan {i : Instr} {p : PortId} {n : Nat} {s : State} {f : State → Reply}
    (hPort : portOf i = some p) (hCarried : p ∈ carriedOn i) (hBody : bodyOf i = onPlan n f) (hn : isPlanNumber n = false) :
    exec i s = .next (answered p i .badArgument [] s) :=
  exec_refused hPort hCarried (by rw [hBody, onPlan_invalid _ s hn])

theorem isParameter_iff {v : Int} : isParameter v = true ↔ -8388608 ≤ v ∧ v ≤ 8388607 := by simp [isParameter]

theorem refInRange_iff (r : Ref) : refInRange r = true ↔ match r with
    | .immediate v => -8388608 ≤ v ∧ v ≤ 8388607
    | .variant c => c ≤ 15
    | .common c => c ≤ 63
    | .indirect c => c ≤ 63 := by
  cases r with
  | immediate v => exact isParameter_iff
  | variant i => exact decide_eq_true_iff
  | common i => exact decide_eq_true_iff
  | indirect i => exact decide_eq_true_iff

theorem auditCell_inRange_iff (r : StepRecord) : (r.skip ≠ .audit || r.auditCell.any isCountdown) = true ↔
    (r.skip = .audit → ∃ c, r.auditCell = some c ∧ 56 ≤ c ∧ c ≤ 63) := by
  cases hc : r.auditCell with
  | none => simp
  | some c => simp [isCountdown, imp_iff_not_or]

theorem Vector.all_toList_iff {α : Type} {n : Nat} (v : Vector α n) (p : α → Bool) :
    v.toList.all p = true ↔ ∀ j : Fin n, p v[j] = true := by
  rw [List.all_eq_true]
  constructor
  · intro h j
    exact h _ (by simp)
  · intro h x hx
    obtain ⟨i, hi, rfl⟩ := List.getElem_of_mem hx
    rw [Vector.length_toList] at hi
    simpa using h ⟨i, hi⟩

theorem recordInRange_iff (r : StepRecord) : recordInRange r = true ↔ r.next ≤ 255 ∧
    (r.skip = .audit → ∃ c, r.auditCell = some c ∧ 56 ≤ c ∧ c ≤ 63) ∧ ∀ j : Fin 10, refInRange r.refs[j] = true := by
  rw [recordInRange, Bool.and_eq_true, Bool.and_eq_true, auditCell_inRange_iff, Vector.all_toList_iff, decide_eq_true_iff]
  tauto

theorem runWriteStep_refused {n k : Nat} {r : StepRecord} {s : State} (h : ¬(k ≤ 254 ∧ recordInRange r = true)) :
    runWriteStep n k r s = refuse .badArgument s := by
  refine if_pos ?_
  rw [not_and_or, not_le, Bool.not_eq_true] at h
  exact h

/-- Settles O54. -/
theorem openAndWriteStepAct : Obligations.OpenAndWriteStepAct := by
  intro n s
  have opened : ∀ {st payload t}, isPlanNumber n = true → runOpenPlan n s = ⟨st, payload, t⟩ →
      exec (.openPlan .cell n) s = .next (answered .cell _ st payload t) := exec_onPlan rfl (List.mem_singleton.mpr rfl) rfl
  refine ⟨exec_offPlan rfl (List.mem_singleton.mpr rfl) rfl, fun hn h => opened hn (if_neg h), fun hn h => ⟨_, opened hn (if_pos h),
    PlanStore.entry_setEntry_same _ _ hn, fun m hm => PlanStore.entry_setEntry_other _ _ hm, PlanStore.setEntry_slots ..,
    PlanStore.setEntry_variants .., PlanStore.setEntry_common ..⟩, fun k rec => ?write⟩
  intro i inRange
  have written : ∀ {st payload t}, isPlanNumber n = true → runWriteStep n k rec s = ⟨st, payload, t⟩ →
      exec i s = .next (answered .cell i st payload t) := exec_onPlan rfl (List.mem_singleton.mpr rfl) rfl
  have hRange : inRange ↔ k ≤ 254 ∧ recordInRange rec = true := by
    rw [recordInRange_iff]
    simp only [refInRange_iff]
    rfl
  refine ⟨fun h => ?_, fun hn hr => ?_⟩
  · by_cases hn : isPlanNumber n = true
    · obtain h | h := h
      · rw [hn] at h; cases h
      · exact written hn (runWriteStep_refused (mt hRange.mpr h))
    · exact exec_offPlan rfl (List.mem_singleton.mpr rfl) rfl (Bool.eq_false_iff.mpr hn)
  · obtain ⟨hk, hRecord⟩ := hRange.mp hr
    have hRun : runWriteStep n k rec s = _ := if_neg (by rw [not_or, not_lt, hRecord]; exact ⟨hk, Bool.noConfusion⟩)
    have hlt : k < 255 := by omega
    refine ⟨fun h => written hn (hRun.trans (if_pos h)), fun o h ho hPlan => written hn (hRun.trans ((if_neg (not_not.mpr h)).trans
      (if_pos (by simp [ho, hPlan])))), fun h hOwn => ⟨_, written hn (hRun.trans ((if_neg (not_not.mpr h)).trans (if_neg ?_))),
      (PlanStore.slotAt_setSlot _ _ hlt k).trans (if_pos rfl), fun j hj => (PlanStore.slotAt_setSlot _ _ hlt j).trans (if_neg hj),
      PlanStore.freeCount_setSlot_some _ _ hlt, rfl, rfl, rfl⟩⟩
    cases hs : s.store.slotAt k with
    | none => simp
    | some o => simp [hOwn o hs]

/-! ## The variant table (R41, R43, R44) -/

theorem variant_eq_none_iff {st : PlanStore} {code : Nat} : st.variant code = none ↔ ∀ v ∈ st.variants, v.code ≠ code := by
  simp [PlanStore.variant]

/-- In a table in ascending order the entry of a code is the one that is found. -/
theorem VariantsOk.variant_eq {s : State} (h : VariantsOk s) {v : VariantEntry} (hv : v ∈ s.store.variants) :
    s.store.variant v.code = some v := by
  have hFound : ∀ l : List VariantEntry, l.Pairwise (fun v w => v.code < w.code) → v ∈ l → l.find? (·.code == v.code) = some v := by
    intro l
    induction l with
    | nil => simp
    | cons w ws ih =>
      intro hp hm
      obtain ⟨hw, hws⟩ := List.pairwise_cons.mp hp
      obtain rfl | hm := List.mem_cons.mp hm
      · simp
      · have := hw v hm
        rw [List.find?_cons_of_neg (by simp; omega)]
        exact ih hws hm
  exact hFound _ h.ascending hv

theorem mem_insertVariant_iff {v w : VariantEntry} {vs : List VariantEntry} (h : vs.Pairwise (fun a b => a.code < b.code)) :
    w ∈ insertVariant v vs ↔ w = v ∨ w ∈ vs ∧ w.code ≠ v.code := by
  induction vs with
  | nil => simp [insertVariant]
  | cons x xs ih =>
    obtain ⟨hx, hxs⟩ := List.pairwise_cons.mp h
    unfold insertVariant
    split
    · next hlt =>
      have hOther : ∀ y ∈ x :: xs, y.code ≠ v.code := by
        intro y hy
        obtain rfl | hy := List.mem_cons.mp hy
        · omega
        · have := hx y hy; omega
      rw [List.mem_cons]
      exact or_congr_right ⟨fun hw => ⟨hw, hOther w hw⟩, And.left⟩
    · split
      · next heq =>
        have hOther : ∀ y ∈ xs, y.code ≠ v.code := fun y hy => by have := hx y hy; omega
        rw [List.mem_cons, List.mem_cons]
        refine or_congr_right ⟨fun hw => ⟨.inr hw, hOther w hw⟩, ?_⟩
        rintro ⟨rfl | hw, hne⟩
        · exact absurd heq.symm hne
        · exact hw
      · next hne =>
        rw [List.mem_cons, List.mem_cons, ih hxs]
        constructor
        · rintro (rfl | rfl | ⟨hw, hc⟩)
          · exact .inr ⟨.inl rfl, fun e => hne e.symm⟩
          · exact .inl rfl
          · exact .inr ⟨.inr hw, hc⟩
        · rintro (rfl | ⟨rfl | hw, hc⟩)
          · exact .inr (.inl rfl)
          · exact .inl rfl
          · exact .inr (.inr ⟨hw, hc⟩)

theorem isVariantCode_iff {code : Nat} : isVariantCode code = true ↔ 1 ≤ code ∧ code ≤ 65534 := by simp [isVariantCode]

/-- Settles O57. -/
theorem variantAndCellWritesAct : Obligations.VariantAndCellWritesAct := by
  intro s
  refine ⟨fun code n cells => ?variant, fun code => ?delete, fun k v => ?cell⟩
  case variant =>
    intro i inRange
    have written : ∀ {st payload t}, runWriteVariant code n cells s = ⟨st, payload, t⟩ →
        exec i s = .next (answered .cell i st payload t) := exec_body rfl (List.mem_singleton.mpr rfl) rfl
    have hRange : inRange ↔ ¬(isVariantCode code = false ∨ isPlanNumber n = false ∨ cells.toList.all isParameter = false) := by
      rw [not_or, not_or, Bool.not_eq_false, Bool.not_eq_false, Bool.not_eq_false, isVariantCode_iff, isPlanNumber_iff,
        Vector.all_toList_iff]
      simp only [isParameter_iff, and_assoc]
      rfl
    have hRun : inRange → runWriteVariant code n cells s = _ := fun h => if_neg (hRange.mp h)
    have hFound : ¬(s.store.variant code).isNone = true ↔ ∃ v ∈ s.store.variants, v.code = code := by
      rw [Option.isNone_iff_eq_none, variant_eq_none_iff]
      push Not
      rfl
    refine ⟨fun h => written (if_pos (not_not.mp (mt hRange.mpr h))), fun hr h => written ((hRun hr).trans (if_pos h)),
      fun hr h hNew hFull => ?full, fun hr h hOk hRoom => ⟨_, ?room, fun v => mem_insertVariant_iff hOk.ascending⟩⟩
    case full =>
      refine written ((hRun hr).trans ((if_neg (not_not.mpr h)).trans (if_pos ⟨not_not.mp (mt hFound.mp ?_), hFull⟩)))
      exact fun ⟨v, hv, hc⟩ => hNew v hv hc
    case room =>
      refine written ((hRun hr).trans ((if_neg (not_not.mpr h)).trans (if_neg ?_)))
      rintro ⟨hNew, hFull⟩
      obtain hSome | hRoom := hRoom
      · exact hFound.mpr hSome hNew
      · exact absurd hFull (not_le.mpr hRoom)
  case delete =>
    intro i
    have deleted : ∀ {st payload t}, runDeleteVariant code s = ⟨st, payload, t⟩ →
        exec i s = .next (answered .cell i st payload t) := exec_body rfl (List.mem_singleton.mpr rfl) rfl
    have hCode : 1 ≤ code → code ≤ 65534 → ¬isVariantCode code = false := fun h1 h2 => by
      rw [Bool.not_eq_false, isVariantCode_iff]; exact ⟨h1, h2⟩
    refine ⟨fun h => deleted (if_pos ?_), fun h1 h2 hNone => deleted ((if_neg (hCode h1 h2)).trans (if_pos ?_)),
      fun h1 h2 hSome => ⟨_, deleted ((if_neg (hCode h1 h2)).trans (if_neg ?_)), fun v => ?_⟩⟩
    · rw [Bool.eq_false_iff, ne_eq, isVariantCode_iff]; omega
    · rw [Option.isNone_iff_eq_none, variant_eq_none_iff]; exact hNone
    · rw [Option.isNone_iff_eq_none, variant_eq_none_iff]
      obtain ⟨v, hv, hc⟩ := hSome
      exact fun h => h v hv hc
    · simp
  case cell =>
    intro i
    have written : ∀ {st payload t}, runWriteCell k v s = ⟨st, payload, t⟩ → exec i s = .next (answered .cell i st payload t) :=
      exec_body rfl (List.mem_singleton.mpr rfl) rfl
    refine ⟨fun h => written (if_pos ?_), fun hk h1 h2 => ?_⟩
    · rw [Bool.eq_false_iff, ne_eq, isParameter_iff]; omega
    · have hStored : (s.store.setCommon k (storedCell k v)).commonAt k = storedCell k v :=
        (commonAt_setCommon ..).trans (if_pos ⟨rfl, by omega⟩)
      refine ⟨s.store.setCommon k (storedCell k v), ?_, fun h => ?_, fun h => ?_,
        fun j hj => (commonAt_setCommon ..).trans (if_neg fun h => hj h.1), rfl, rfl, rfl⟩
      · rw [hStored]
        refine written (if_neg ?_)
        rw [not_or, Bool.not_eq_false, isParameter_iff]
        omega
      · rw [hStored]
        exact if_neg (by rw [isCountdown_iff]; omega)
      · rw [hStored, storedCell, if_pos (isCountdown_iff.mpr ⟨h, hk⟩)]
        unfold clamp
        split_ifs <;> omega

/-! ## Reads (R32, R40, R44, R45) -/

@[simp] theorem length_bytesOf (k n : Nat) : (bytesOf k n).length = k := by
  induction k generalizing n with
  | zero => rfl
  | succ k ih => simp [bytesOf, ih]

@[simp] theorem length_bytesOfInt (k : Nat) (i : Int) : (bytesOfInt k i).length = k := length_bytesOf ..

theorem length_refBytes (r : Ref) : (refBytes r).length = 4 := by
  cases r <;> simp [refBytes]

theorem length_flatten_map {α : Type} {f : α → List Byte} {n : Nat} (h : ∀ x, (f x).length = n) (l : List α) :
    (l.map f).flatten.length = n * l.length := by
  induction l with
  | nil => simp
  | cons x xs ih => simp [h, ih, Nat.mul_add]; omega

theorem length_stepBytes (plan slot : Nat) (r : StepRecord) : (stepBytes plan slot r).length = 46 := by
  simp [stepBytes, length_flatten_map length_refBytes, -List.length_flatten, Config.refCount]

/-- Settles O58. -/
theorem storeReadsAnswer : Obligations.StoreReadsAnswer := by
  intro s
  refine ⟨fun k => ?step, fun n => ?plan, fun code start => ?variant, fun k => ?cell⟩
  case step =>
    intro i
    have read : ∀ {st payload t}, runReadStep k s = ⟨st, payload, t⟩ → exec i s = .next (answered .cell i st payload t) :=
      exec_body rfl (List.mem_singleton.mpr rfl) rfl
    refine ⟨fun h => read (if_pos h), fun h hs => read ((if_neg (not_lt.mpr h)).trans (by rw [hs]; rfl)),
      fun o h hs => ⟨length_stepBytes .., read ((if_neg (not_lt.mpr h)).trans (by rw [hs]; rfl))⟩⟩
  case plan =>
    intro i e
    refine ⟨exec_offPlan rfl (List.mem_singleton.mpr rfl) rfl, fun hn => ?_⟩
    have hRun := exec_onPlan (i := i) rfl (List.mem_singleton.mpr rfl) rfl hn (rfl : runReadPlan n s = _)
    rw [hRun]
    have hOption : ∀ o : Option Nat, bytesOfOption 1 (o.map (bytesOf 1)) = match o with | none => [0, 0] | some k => [1] ++ bytesOf 1 k :=
      fun o => by cases o <;> rfl
    simp only [runReadPlan, accept, hOption]
    rfl
  case variant =>
    intro i
    have read : ∀ {st payload t}, runReadVariant code start s = ⟨st, payload, t⟩ → exec i s = .next (answered .cell i st payload t) :=
      exec_body rfl (List.mem_singleton.mpr rfl) rfl
    have hCode : 1 ≤ code → code ≤ 65534 → runReadVariant code start s = _ := fun h1 h2 =>
      (if_neg (by omega)).trans (if_neg (by rw [Bool.not_eq_false, isVariantCode_iff]; exact ⟨h1, h2⟩))
    refine ⟨fun h => ⟨_, rfl, read ((if_pos h).trans ?_)⟩, fun h => read ((if_neg (by omega)).trans (if_pos ?_)),
      fun h1 h2 hNone => read ((hCode h1 h2).trans ?_), fun v hv hOk hc => read ?_⟩
    · simp only [variantListBytes, List.map_take, List.map_drop]; rfl
    · rw [Bool.eq_false_iff, ne_eq, isVariantCode_iff]; omega
    · rw [variant_eq_none_iff.mpr hNone]; rfl
    · obtain ⟨h1, h2⟩ := isVariantCode_iff.mp (hOk.codes v hv)
      subst hc
      rw [hCode h1 h2, hOk.variant_eq hv]; rfl
  case cell =>
    intro i
    have read : ∀ {st payload t}, runReadCell k s = ⟨st, payload, t⟩ → exec i s = .next (answered .cell i st payload t) :=
      exec_body rfl (List.mem_singleton.mpr rfl) rfl
    exact ⟨fun h => read (if_pos h), fun h => read (if_neg (not_lt.mpr h))⟩

end Sys2Proof.Machine
end

section
/-! PROOF. What the status reads answer, and the Report Queue's TAKE REPORT (R8, R107, R157 to R162, R169, R170, R173). -/

namespace Sys2Proof.Machine

/-! ## Bitmaps and optional fields (R170) -/

theorem bytesOf_one (n : Nat) : bytesOf 1 n = [BitVec.ofNat 8 n] := rfl

theorem linesByte_eq (l : ActuatorLines) : linesByte l = BitVec.ofNat 8 ((if l.clamp then 1 else 0) + (if l.couple then 2 else 0) +
    (if l.sealHeads then 4 else 0) + (if l.fill then 8 else 0) + (if l.vent then 16 else 0)) := by
  rw [← linesByte_toNat, BitVec.ofNat_toNat, BitVec.setWidth_eq]

theorem inputsByte_eq (i : InputLines) : inputsByte i = BitVec.ofNat 8 ((if i.pres then 1 else 0) + (if i.clmp then 2 else 0) +
    (if i.cpld then 4 else 0) + (if i.grd then 8 else 0)) := by
  obtain ⟨pres, clmp, cpld, grd⟩ := i
  cases pres <;> cases clmp <;> cases cpld <;> cases grd <;> rfl

theorem bitmap_three (x y z : Bool) : bitmap [x, y, z] =
    BitVec.ofNat 8 ((if x then 1 else 0) + (if y then 2 else 0) + (if z then 4 else 0)) := by
  cases x <;> cases y <;> cases z <;> rfl

theorem notesByte_eq (n : Notes) : bitmap [n.gain, false, n.retried, n.saturatedQ] =
    BitVec.ofNat 8 ((if n.gain then 1 else 0) + (if n.retried then 4 else 0) + (if n.saturatedQ then 8 else 0)) := by
  obtain ⟨gain, retried, saturatedQ⟩ := n
  cases gain <;> cases retried <;> cases saturatedQ <;> rfl

theorem resultBytes_eq (x : Result) : resultBytes x = [BitVec.ofNat 8 x.slot, BitVec.ofNat 8 (kindCode x.kind),
    BitVec.ofNat 8 (checkCode x.check), BitVec.ofNat 8 (verdictCode x.verdict), BitVec.ofNat 8 (x.cause.elim 0 causeCode),
    BitVec.ofNat 8 ((if x.notes.gain then 1 else 0) + (if x.notes.retried then 4 else 0) + (if x.notes.saturatedQ then 8 else 0))] ++
    bytesOfInt 4 x.value1 ++ bytesOfInt 4 x.value2 ++ bytesOf 4 x.completion.toNat := by
  rw [resultBytes, notesByte_eq]
  rfl

theorem length_resultBytes (x : Result) : (resultBytes x).length = 18 := by
  simp [resultBytes]

theorem length_reportBytes (r : Report) : (reportBytes r).length = 24 + r.serial.length + 18 * r.results.length := by
  simp [reportBytes, length_flatten_map length_resultBytes, -List.length_flatten]
  omega

theorem reportBytes_eq (r : Report) : reportBytes r = bytesOf 4 (r.sequence.getD 0) ++ [BitVec.ofNat 8 (bayCode r.bay),
      BitVec.ofNat 8 (finalVerdictCode r.verdict), BitVec.ofNat 8 (r.cause.elim 0 causeCode),
      BitVec.ofNat 8 (r.secondary.elim 0 causeCode),
      BitVec.ofNat 8 ((if r.audit then 1 else 0) + (if r.adjusted then 2 else 0) + (if r.handoverTime = none then 0 else 4)),
      BitVec.ofNat 8 r.planNumber] ++ bytesOf 2 r.planVersion ++ bytesOf 2 r.variantCode ++
    bytesOf 4 (r.handoverTime.elim 0 (·.toNat)) ++ bytesOf 4 r.finishTime.toNat ++
    [BitVec.ofNat 8 r.results.length, BitVec.ofNat 8 r.serial.length] ++ r.serial ++ (r.results.map resultBytes).flatten := by
  have hHandover : (if r.handoverTime.isSome = true then 4 else 0) = if r.handoverTime = none then 0 else 4 := by
    cases r.handoverTime <;> rfl
  simp only [reportBytes, bitmap_three, hHandover, bytesOf_one, causeCodeOf, List.append_assoc, List.cons_append, List.nil_append]

theorem recordBytes_eq (r : BayRecord) : recordBytes r = [BitVec.ofNat 8 (bayStateCode r.state), BitVec.ofNat 8 (ownerCode r.owner)] ++
    serialBytes r.serial ++ bytesOf 2 r.variantCode ++ bytesOfOption 1 (r.planNumber.map (bytesOf 1)) ++
    bytesOfOption 2 (r.planVersion.map (bytesOf 2)) ++ bytesOfOption 1 (r.slot.map (bytesOf 1)) ++
    [BitVec.ofNat 8 (phaseCode r.phase), if r.holdRequest then 1 else 0, if r.endRequest then 1 else 0,
      BitVec.ofNat 8 (verdictCode r.verdict), BitVec.ofNat 8 r.results.length, BitVec.ofNat 8 r.pendingReductions,
      if r.audit then 1 else 0, if r.adjusted then 1 else 0, BitVec.ofNat 8 (r.cause.elim 0 causeCode),
      BitVec.ofNat 8 (r.secondary.elim 0 causeCode), BitVec.ofNat 8 (reportStatusCode r.reportStatus), linesByte r.lines,
      inputsByte r.inputs] := by
  simp only [recordBytes, byteOfBool, bytesOf_one, causeCodeOf, List.append_assoc, List.cons_append, List.nil_append]

/-- A report of the drive with its age, absent together. -/
def reportField (o : Option DriveReport) (age : Nat) : List Byte :=
  match o with
  | none => List.replicate 9 0
  | some r => [1, BitVec.ofNat 8 (driveStateCode r.state)] ++ bytesOfInt 2 r.speed ++ bytesOfInt 2 r.torque ++ [1] ++ bytesOf 2 age

/-- The last sample of a window with the silence of its channel, absent together. -/
def sampleField (o : Option Sample) (silence : Nat) : List Byte :=
  match o with
  | none => List.replicate 6 0
  | some v => [1] ++ bytesOfInt 2 v.word ++ [1] ++ bytesOf 2 silence

def vibrationField (o : Option VibrationSample) : List Byte :=
  match o with
  | none => List.replicate 4 0
  | some v => [1, BitVec.ofNat 8 v.angle] ++ bytesOfInt 2 v.value

/-- A mean of `k` bytes, when it is available. -/
def meanField (k : Nat) (o : Option Int) : List Byte :=
  match o with
  | none => List.replicate (k + 1) 0
  | some v => [1] ++ bytesOfInt k v

/-- A number of one byte, when there is one. -/
def byteField (o : Option Nat) : List Byte :=
  match o with
  | none => [0, 0]
  | some k => [1, BitVec.ofNat 8 k]

theorem byteField_eq (o : Option Nat) : bytesOfOption 1 (o.map (bytesOf 1)) = byteField o := by
  cases o <;> rfl

theorem reportField_eq (o : Option DriveReport) (age : Nat) :
    bytesOfOption 5 (o.map fun r => bytesOf 1 (driveStateCode r.state) ++ bytesOfInt 2 r.speed ++ bytesOfInt 2 r.torque) ++
      bytesOfOption 2 (o.map fun _ => bytesOf 2 age) = reportField o age := by
  cases o with
  | none => rfl
  | some r => simp [bytesOfOption, reportField, bytesOf_one]

theorem sampleField_eq (o : Option Sample) (silence : Nat) :
    bytesOfOption 2 (o.map fun p => bytesOfInt 2 p.word) ++ bytesOfOption 2 (o.map fun _ => bytesOf 2 silence) =
      sampleField o silence := by
  cases o with
  | none => rfl
  | some r => simp [bytesOfOption, sampleField]

theorem vibrationField_eq (o : Option VibrationSample) :
    bytesOfOption 3 (o.map fun v => bytesOf 1 v.angle ++ bytesOfInt 2 v.value) = vibrationField o := by
  cases o <;> rfl

theorem meanField_eq (k : Nat) (o : Option Int) : bytesOfOption k (o.map (bytesOfInt k)) = meanField k o := by
  cases o <;> rfl

theorem liveBytes_eq (x : Bay) : liveBytes x =
    [BitVec.ofNat 8 (bayStateCode x.record.state), BitVec.ofNat 8 (ownerCode x.record.owner)] ++
    byteField x.record.slot ++ [BitVec.ofNat 8 (phaseCode x.record.phase), if x.drive.enable then 1 else 0] ++ bytesOfInt 2 x.drive.target ++
    bytesOfInt 2 x.drive.jogTarget ++ bytesOfInt 2 (x.drive.x.tdiv 1000) ++ reportField x.drive.latest x.drive.reportAge ++
    [BitVec.ofNat 8 x.drive.missed] ++ sampleField x.sensor.pressure.getLast? x.sensor.pressureSilence ++
    [BitVec.ofNat 8 x.sensor.pressure.length] ++ meanField 3 x.sensor.pressureNow ++
    sampleField x.sensor.temperature.getLast? x.sensor.temperatureSilence ++ [BitVec.ofNat 8 x.sensor.temperature.length] ++
    meanField 2 x.sensor.temperatureNow ++ vibrationField x.sensor.vibration ++ bytesOf 2 x.sensor.vibrationSilence ++
    bytesOf 2 x.sensor.framingErrors := by
  simp only [← reportField_eq, ← sampleField_eq, ← vibrationField_eq, ← meanField_eq, ← byteField_eq]
  unfold liveBytes
  simp only [byteOfBool, bytesOf_one, DriveLink.setpoint, List.append_assoc, List.cons_append, List.nil_append]

/-! ## Reads (R8, R107, R159, R161, R169) -/

theorem mem_carriedOn_archivePair {i : Instr} {p : PortId} (h : carriedOn i = [.archive, .cell]) :
    p ∈ carriedOn i ↔ p = .archive ∨ p = .cell := by
  simp [h]

theorem queueStatusBytes_eq (q : ReportQueue) : queueStatusBytes q = bytesOf 1 q.queue.length ++
    (match q.queue with | [] => [0, 0, 0, 0, 0] | r :: _ => [1] ++ bytesOf 4 (r.sequence.getD 0)) ++ bytesOf 1 q.waiting.length ++
    (q.waiting.map fun w => BitVec.ofNat 8 (bayCode w.bay)) ++ List.replicate (4 - q.waiting.length) 0 ++ bytesOf 4 q.nextSequence ++
    [if q.backlog then 1 else 0] := by
  unfold queueStatusBytes
  cases q.queue <;> rfl

theorem clampNat_min (lo hi v : Nat) (h : lo ≤ hi) : clampNat lo hi v = max lo (min hi v) := by
  unfold clampNat; split_ifs <;> omega

theorem peekBytes_eq (bytes : List Byte) (offset length : Nat) : peekBytes bytes offset length = (bytes.drop offset).take (min 48 length) := by
  rw [peekBytes, clampNat_min 0 48 length (Nat.zero_le _), Nat.zero_max]

/-- Settles O59. -/
theorem statusReadsAnswer : Obligations.StatusReadsAnswer := by
  intro p s
  refine ⟨?nop, fun r => ?record, fun x => ?live, ⟨rfl, rfl, rfl, rfl, rfl, rfl, rfl⟩, fun r => ?report, ⟨rfl, rfl, rfl⟩,
    fun b n hb hp => ?readBay, fun b n hb => ?readLive, fun n hn => ?badBay, fun hp => ⟨?status, fun offset length => ?peek⟩⟩
  case nop => exact exec_body rfl (by cases p <;> decide) rfl rfl
  case record =>
    rw [recordBytes_eq, linesByte_eq, inputsByte_eq]
    cases r.serial <;> cases r.planNumber <;> cases r.planVersion <;> cases r.slot <;> rfl
  case live =>
    intro d l
    rw [liveBytes_eq]
    rfl
  case report =>
    rw [reportBytes_eq, show resultBytes = _ from funext resultBytes_eq]
  case readBay => exact exec_onBay (i := .readBay p n) (f := runReadBay) rfl ((mem_carriedOn_linePair rfl).mpr hp) rfl hb rfl
  case readLive => exact exec_onBay (i := .readLive .cell n) (f := runReadLive) rfl (List.mem_singleton.mpr rfl) rfl hb rfl
  case badBay =>
    exact ⟨fun hp => exec_refused rfl ((mem_carriedOn_linePair rfl).mpr hp) (onBay_invalid _ s hn),
      exec_refused rfl (List.mem_singleton.mpr rfl) (onBay_invalid _ s hn)⟩
  case status =>
    have hStatus : exec (.queueStatus p) s = .next (answered p (.queueStatus p) .ok (queueStatusBytes s.reports) s) :=
      exec_body (f := runQueueStatus) rfl ((mem_carriedOn_archivePair rfl).mpr hp) rfl rfl
    rw [hStatus, queueStatusBytes_eq] <;> rfl
  case peek =>
    intro i
    have peeked : ∀ {st payload t}, runPeekReport offset length s = ⟨st, payload, t⟩ → exec i s = .next (answered p i st payload t) :=
      exec_body rfl ((mem_carriedOn_archivePair rfl).mpr hp) rfl
    refine ⟨fun h => peeked (by simp only [runPeekReport, h]; rfl), fun r rest hq => ?_⟩
    have hRun : runPeekReport offset length s = if (reportBytes r).length ≤ offset then refuse .badArgument s
        else accept (bytesOf 4 (r.sequence.getD 0) ++ bytesOf 2 (reportBytes r).length ++ bytesOf 2 offset ++
          peekBytes (reportBytes r) offset length) s := by
      simp only [runPeekReport, hq]
    refine ⟨length_reportBytes r, fun h => peeked (hRun.trans (if_pos h)), fun h => ⟨_, ?_, ?_, peeked (hRun.trans (if_neg (not_le.mpr h)))⟩⟩
    · rw [peekBytes_eq, List.length_take, List.length_drop]
    · rw [peekBytes_eq]; exact List.take_prefix _ _

end Sys2Proof.Machine
end

section
/-! PROOF. Every event and command of a bay is a run of moves of that bay, and every step a run of effects (01 to 08). -/

namespace Sys2Proof.Machine

/-! ## Drives within their limits (R71, R75, R79, R80, R92, R93) -/

section DriveOk
variable {dl : DriveLink} {limit : Nat} {o : Owner} {st : BayState}

/-- The limits speak of the core of a drive alone. -/
theorem DriveLink.Ok.congr {dl' : DriveLink} (h : dl.Ok limit o st) (hCore : dl'.core = dl.core) : dl'.Ok limit o st := by
  simp only [DriveLink.core, DriveLink.mk.injEq] at hCore
  obtain ⟨hx, hTarget, -, -, hEnable, hJog, -, -, hMissed, -, -, hWind, -⟩ := hCore
  have hWind' : dl'.windDown ≠ .none ↔ dl.windDown ≠ .none := by
    by_cases h1 : dl'.windDown = .none <;> by_cases h2 : dl.windDown = .none <;> simp_all
  obtain ⟨target, setpoint, line, sequencer, manual, jog, missed, winding⟩ := h
  constructor
  · rwa [hTarget]
  · rwa [hx]
  · rwa [hEnable, hTarget, hx, hJog]
  · rwa [hEnable, hJog]
  · rwa [hTarget, hJog, hEnable, hx]
  · rwa [hJog]
  · rwa [hMissed, hEnable]
  · rwa [hWind']

theorem DriveLink.Ok.missed_zero (h : dl.Ok limit o st) : { dl with missed := 0 }.Ok limit o st :=
  ⟨h.target, h.setpoint, h.line, h.sequencer, h.manual, h.jog, ⟨Nat.zero_le _, fun _ => rfl⟩, h.winding⟩

theorem DriveLink.Ok.takeReport (rep : DriveReport) (h : dl.Ok limit o st) : (dl.takeReport rep).Ok limit o st :=
  h.missed_zero.congr rfl

theorem DriveLink.accumulate_core (rep : DriveReport) (dl : DriveLink) : (dl.accumulate rep).core = dl.core := by
  unfold DriveLink.accumulate
  split
  · rfl
  · split <;> rfl

theorem DriveLink.Ok.settleMessage (h : dl.Ok limit o st) : dl.settleMessage.Ok limit o st := by
  unfold DriveLink.settleMessage
  split
  · next he =>
    obtain ⟨target, setpoint, line, sequencer, manual, jog, missed, winding⟩ := h
    rw [Bool.and_eq_true] at he
    exact ⟨target, setpoint, line, sequencer, manual, jog, ⟨Nat.min_le_left .., fun hf => by rw [he.2] at hf; cases hf⟩, winding⟩
  · exact h

/-- The message of a millisecond keeps the limits. -/
theorem DriveLink.Ok.messaged (h : dl.Ok limit o st) : dl.settleMessage.sendMessage.ageReport.Ok limit o st :=
  h.settleMessage.congr rfl

/-- In manual, enable is put in order by the examination of each millisecond and of each jog (R75). -/
theorem DriveLink.Ok.manualEnable (ho : o = .cell) (hTarget : dl.target.natAbs ≤ limit) (hSetpoint : dl.x.natAbs ≤ 1000 * limit)
    (hManual : dl.target = dl.jogTarget) (hJog : dl.jogTarget.natAbs ≤ 300) (hMissed : dl.missed ≤ 20)
    (hWinding : dl.windDown ≠ .none ↔ st = .closing ∨ st = .aborting) : dl.manualEnable.Ok limit o st := by
  subst ho
  by_cases hMoving : dl.jogTarget ≠ 0 ∨ dl.x ≠ 0
  · rw [DriveLink.manualEnable_moving hMoving]
    exact ⟨hTarget, hSetpoint, Owner.noConfusion, Owner.noConfusion, fun _ => ⟨hManual, fun _ => hMoving, fun _ => rfl⟩, hJog,
      ⟨hMissed, Bool.noConfusion⟩, hWinding⟩
  · rw [not_or, not_not, not_not] at hMoving
    rw [DriveLink.manualEnable_rest hMoving.1 hMoving.2]
    exact ⟨hTarget, hSetpoint, Owner.noConfusion, Owner.noConfusion,
      fun _ => ⟨hManual, Bool.noConfusion, fun hm => absurd hm (by simp [hMoving])⟩, hJog, ⟨Nat.zero_le _, fun _ => rfl⟩, hWinding⟩

theorem DriveLink.Ok.examineManual (ho : o = .cell) (h : dl.Ok limit o st) : dl.manualEnable.Ok limit o st :=
  .manualEnable ho h.target h.setpoint (h.manual ho).1 h.jog h.missed.1 h.winding

/-- What a jog stop does to a drive (R93). -/
def DriveLink.stopJog (ramp : Nat) (dl : DriveLink) : DriveLink :=
  if dl.jogTarget = 0 then dl else { dl with jogTarget := 0, target := 0, rampRate := ramp }.manualEnable

theorem jogStop_eq (b : BayId) (s : State) : jogStop b s = mapDrive b (DriveLink.stopJog s.cell.stopRamp) s := rfl

theorem DriveLink.Ok.stopJog (ramp : Nat) (ho : o = .cell) (h : dl.Ok limit o st) : (dl.stopJog ramp).Ok limit o st := by
  unfold DriveLink.stopJog
  split
  · exact h
  · exact .manualEnable ho (Nat.zero_le _) h.setpoint rfl (Nat.zero_le _) h.missed.1 h.winding

theorem DriveLink.Ok.startJog (v : Int) (ho : o = .cell) (h : dl.Ok limit o st) :
    { dl with jogTarget := jogSpeed limit v, target := jogSpeed limit v, rampRate := 200 }.manualEnable.Ok limit o st := by
  have hSpeed := jogSpeed_natAbs limit v
  exact .manualEnable ho (by show (jogSpeed limit v).natAbs ≤ _; omega) h.setpoint rfl
    (by show (jogSpeed limit v).natAbs ≤ _; omega) h.missed.1 h.winding

theorem generatorMove_natAbs {x target : Int} {limit : Nat} (rate : Nat) (hx : x.natAbs ≤ 1000 * limit) (ht : target.natAbs ≤ limit) :
    (generatorMove x target rate).natAbs ≤ 1000 * limit := by
  simp only [generatorMove]
  split <;> omega

theorem generatorMove_zero (rate : Nat) : generatorMove 0 0 rate = 0 := by
  simp [generatorMove]

/-- Out of manual a generator step keeps the limits (R79, R80). -/
theorem DriveLink.Ok.generatorStep (ho : o ≠ .cell) (h : dl.Ok limit o st) : dl.generatorStep.Ok limit o st :=
  ⟨h.target, generatorMove_natAbs _ h.setpoint h.target,
    fun hl => by
      obtain ⟨hEnable, hTarget, hx, hJog⟩ := h.line hl
      exact ⟨hEnable, hTarget, by show generatorMove dl.x dl.target dl.rampRate = 0; rw [hx, hTarget, generatorMove_zero], hJog⟩,
    h.sequencer, fun hc => absurd hc ho, h.jog, h.missed, h.winding⟩

end DriveOk

/-! ## A change of an input (R22) -/

/-- A changed input recorded, with PRESENCE for PRES, before what its fall does. -/
def inputRecorded (b : BayId) (l : InputLine) (v : Bool) (s : State) : State :=
  if l = .pres then raise (.presence b) (mapRecord b (fun r => { r with inputs := r.inputs.set l v }) s)
  else mapRecord b (fun r => { r with inputs := r.inputs.set l v }) s

theorem changeInput_same {b : BayId} {l : InputLine} {v : Bool} {s : State} (h : (s.record b).inputs.get l = v) :
    changeInput b l v s = s := if_pos h

theorem changeInput_change {b : BayId} {l : InputLine} {v : Bool} {s : State} (h : (s.record b).inputs.get l ≠ v) :
    changeInput b l v s = if v then inputRecorded b l v s else inputFalls b l (inputRecorded b l v s) := if_neg h

/-! ## Events of a bay -/

section Moves
variable {b : BayId} {g d : Prop}

/-- The moves of a change of the drive that keeps its core. -/
theorem mapDrive_moves {f : DriveLink → DriveLink} (s : State) (h : (f (s.bay b).drive).core = (s.bay b).drive.core) :
    Moves b g d s (mapDrive b f s) := .of_frame (mapDrive_frame b f s h)

theorem jogStop_moves (s : State) (h : (s.record b).owner = .cell) : Moves b g d s (jogStop b s) :=
  (Move.drive _ s fun _ _ _ hOk => hOk.stopJog _ h).run

/-- A bay that has finished or aborted shows no phase. -/
theorem settleEnding_phase (s : State) (h : (s.record b).phase = .none) : ((settleEnding b s).record b).phase = .none := by
  have hFinish : ∀ v, ((finishBay b v s).record b).phase = .none := fun v => by rw [finishBay_record_same]
  unfold settleEnding
  split
  · split
    · exact hFinish _
    · split
      · exact hFinish _
      · exact h
    · exact h
  · exact h

theorem enterAborting_phase (cause : Cause) (s : State) : ((enterAborting b cause s).record b).phase = .none := by
  obtain ⟨n, l, hRecord, -⟩ := beginAborting_record b cause s
  rw [enterAborting_eq]
  exact settleEnding_phase _ (by rw [mapDrive_recordOf, hRecord])

theorem PhaseRuns.of_none {s : State} (h : (s.record b).phase = .none) : PhaseRuns b s := fun hp => absurd h hp

theorem PhaseRuns.congr {s t : State} (h : PhaseRuns b s) (hPhase : (t.record b).phase = (s.record b).phase)
    (hState : (t.record b).state = (s.record b).state) : PhaseRuns b t := by
  unfold PhaseRuns
  rw [hPhase, hState]; exact h

theorem takeFault_phaseRuns (f : Cause) (s : State) (h : PhaseRuns b s) : PhaseRuns b (takeFault b f s) := by
  unfold takeFault
  split
  · exact .of_none (enterAborting_phase ..)
  · exact .of_none (enterAborting_phase ..)
  · exact .of_none (enterAborting_phase ..)
  · exact h.congr (by simp [recordSecondary]) (by simp [recordSecondary])
  · exact h

theorem driveEvent_moves (cause : Cause) (s : State) : Moves b g d s (driveEvent b cause s) := by
  unfold driveEvent
  split
  · exact takeFault_moves _ s
  · next h => exact (jogStop_moves s h).then_frame (raise_frame ..)
  · exact .refl

theorem driveEvent_phaseRuns (cause : Cause) (s : State) (h : PhaseRuns b s) : PhaseRuns b (driveEvent b cause s) := by
  unfold driveEvent
  split
  · exact takeFault_phaseRuns _ s h
  · exact h.congr (by simp [jogStop]) (by simp [jogStop])
  · exact h

theorem faultCheck_moves (st : DriveState) (s : State) : Moves b g d s (faultCheck b st s) := by
  unfold faultCheck
  split
  · split
    · exact .refl
    · exact (mapDrive_moves s (by rfl)).trans (driveEvent_moves _ _)
  · exact mapDrive_moves s (by rfl)

theorem faultCheck_phaseRuns (st : DriveState) (s : State) (h : PhaseRuns b s) : PhaseRuns b (faultCheck b st s) := by
  unfold faultCheck
  split
  · split
    · exact h
    · exact driveEvent_phaseRuns _ _ (h.congr (by simp) (by simp))
  · exact h.congr (by simp) (by simp)

theorem takeDriveReport_moves (rep : DriveReport) (s : State) (h : g → PhaseRuns b s) : Moves b g d s (takeDriveReport b rep s) := by
  have hTaken : Moves b g d s (mapDrive b (DriveLink.takeReport rep) s) := (Move.drive _ s fun _ _ _ hOk => hOk.takeReport rep).run
  refine hTaken.trans ((faultCheck_moves _ _).trans ((mapDrive_moves _ (DriveLink.accumulate_core ..)).trans
    ((examineRamp_moves _ fun hg => ?_).trans (examineEnding_moves _))))
  have hChecked : PhaseRuns b (faultCheck b rep.state (mapDrive b (DriveLink.takeReport rep) s)) :=
    faultCheck_phaseRuns _ _ ((h hg).congr (by simp) (by simp))
  exact hChecked.congr (by simp) (by simp)

theorem finishDwell_moves (o : DwellOps) (s : State) (h : g → (s.record b).state = .running) : Moves b g d s (finishDwell b o s) := by
  unfold finishDwell
  dsimp only
  have hPosted : ∀ (c : Bool) (r : Result) (u : State), Moves b g d u (if c then postResult b r u else u) ∧
      ((if c then postResult b r u else u).record b).state = (u.record b).state := fun c r u => by
    cases c
    · exact ⟨.refl, rfl⟩
    · exact ⟨postResult_moves r u, postResult_state ..⟩
  refine (hPosted _ _ _).1.trans ((hPosted _ _ _).1.trans ((mapDrive_moves _ (by rfl)).trans (endStep_moves _ fun hg => ?_)))
  rw [mapDrive_recordOf, (hPosted _ _ _).2, (hPosted _ _ _).2]
  exact h hg

theorem expireWindDown_moves (s : State) : Moves b g d s (expireWindDown b s) := by
  have hFault : ¬FinalVerdict.fault.graded := by simp [FinalVerdict.graded]
  unfold expireWindDown
  split
  · next h =>
    have hFrame : frame b (mapRecord b (fun r => { r with cause := some .driveStuck }) (cancelReductions b s)) = frame b s :=
      (mapRecord_frame ..).trans (cancelReductions_frame ..)
    exact (Moves.of_frame hFrame).trans (Move.finish .fault _ (.inl ((state_of_frame hFrame b).trans h)) fun hv => absurd hv hFault).run
  · next h =>
    have hFrame := recordSecondary_frame b .driveStuck s
    exact (Moves.of_frame hFrame).trans (Move.finish .fault _ (.inr ((state_of_frame hFrame b).trans h)) fun hv => absurd hv hFault).run
  · exact .refl

theorem finishVent_moves (s : State) (h : g → (s.record b).state = .running) : Moves b g d s (finishVent b s) := by
  have hFrame : frame b (refreshLines b (mapLeak b LeakUnit.ended s)) = frame b s := by simp
  exact (Moves.of_frame hFrame).trans (endStep_moves _ fun hg => (state_of_frame hFrame b).trans (h hg))

theorem offerPressure_moves (p : Int) (s : State) (h : g → (s.bay b).leak.phase = .vent → (s.record b).state = .running) :
    Moves b g d s (offerPressure b p s) := by
  unfold offerPressure
  split
  · exact .of_frame (askAmbient_frame ..)
  · exact fillSample_moves p s
  · next hPhase =>
    split
    · exact finishVent_moves s fun hg => h hg hPhase
    · exact .refl
  · exact .refl

theorem failAcquisition_moves (k : BufId) (cause : Cause) (s : State) (h : g → (s.record b).state = .running) :
    Moves b g d s (failAcquisition b k cause s) := by
  unfold failAcquisition
  dsimp only
  refine (Moves.of_frame (mapNoise_frame ..)).trans ((postResult_moves _ _).trans (endStep_moves _ fun hg => ?_))
  rw [postResult_state, mapNoise_recordOf]
  exact h hg

theorem finishAcquisition_moves (k : BufId) (s : State) (h : g → (s.record b).state = .running) :
    Moves b g d s (finishAcquisition b k s) := by
  unfold finishAcquisition
  split
  · exact failAcquisition_moves k _ s h
  · have hFrame : frame b (enqueueBuffer b k (mapNoise b NoiseUnit.rowIdle s)) = frame b s := by simp [enqueueBuffer]
    exact (Moves.of_frame hFrame).trans (endStep_moves _ fun hg => (state_of_frame hFrame b).trans (h hg))

theorem completeRow_moves (k : BufId) (row : List Int) (s : State) (h : g → (s.record b).state = .running) :
    Moves b g d s (completeRow b k row s) := by
  simp only [completeRow]
  have hFrame : frame b (mapNoise b NoiseUnit.rowHunting (mapBuf b k (ListenBuffer.addRow row) s)) = frame b s := by simp
  split
  · exact (Moves.of_frame hFrame).trans (finishAcquisition_moves k _ fun hg => (state_of_frame hFrame b).trans (h hg))
  · exact .of_frame hFrame

theorem slip_moves (k : BufId) (lane : Nat) (v : Int) (s : State) (h : g → (s.record b).state = .running) :
    Moves b g d s (slip b k lane v s) := by
  simp only [slip]
  have hFrame : frame b (mapNoise b NoiseUnit.rowHunting (mapBuf b k (fun x => { x with slips := x.slips + 1 }) s)) = frame b s := by
    simp
  split
  · exact (Moves.of_frame hFrame).trans (failAcquisition_moves k _ _ fun hg => (state_of_frame hFrame b).trans (h hg))
  split
  · exact .of_frame ((mapNoise_frame ..).trans hFrame)
  · exact .of_frame hFrame

theorem offerVibration_moves (angle : Nat) (v : Int) (s : State)
    (h : g → ∀ k, (s.bay b).noise.find .acquiring = some k → (s.record b).state = .running) :
    Moves b g d s (offerVibration b angle v s) := by
  simp only [offerVibration]
  split
  · split
    · exact .of_frame (mapNoise_frame ..)
    · exact .refl
  · next k hk =>
    split
    · exact slip_moves _ _ _ s fun hg => h hg _ hk
    split
    · exact completeRow_moves _ _ s fun hg => h hg _ hk
    · exact .of_frame (mapNoise_frame ..)
  · exact .refl

theorem loseChannel_moves (w : LossWatch) (s : State) : Moves b g d s (loseChannel b w s) := by
  unfold loseChannel
  split
  · exact .refl
  · exact (Moves.of_frame (mapSensor_frame ..)).trans (takeFault_moves _ _)

theorem completeReduction_moves (j : EngineJob) (s : State) : Moves j.bay g d s (completeReduction j s) := by
  unfold completeReduction
  dsimp only
  have hPosted : Moves j.bay g d s (if (s.buf j.bay j.buf).discard then s else
      postResult j.bay (noiseResult (s.buf j.bay j.buf) s.now) s) := by
    split
    · exact .refl
    · exact postResult_moves _ s
  exact hPosted.trans ((Moves.of_frame (freeReduced_frame ..)).trans ((wakeBay_moves _).then_frame (engineTake_frame ..)))

theorem inputFalls_moves (l : InputLine) (s : State) : Moves b g d s (inputFalls b l s) := by
  simp only [inputFalls]
  split
  case h_5 h =>
    split
    · exact (Move.clear s h).run
    · exact .refl
  case h_6 =>
    split
    · next h => exact jogStop_moves s h.2
    · exact .refl
  all_goals exact takeFault_moves _ s

theorem inputRecorded_moves (l : InputLine) (v : Bool) (s : State) : Moves b g d s (inputRecorded b l v s) := by
  have hSet : frame b (mapRecord b (fun r => { r with inputs := r.inputs.set l v }) s) = frame b s := mapRecord_frame ..
  unfold inputRecorded
  split
  · exact .of_frame ((raise_frame ..).trans hSet)
  · exact .of_frame hSet

theorem changeInput_moves (l : InputLine) (v : Bool) (s : State) : Moves b g d s (changeInput b l v s) := by
  by_cases h : (s.record b).inputs.get l = v
  · rw [changeInput_same h]
  · rw [changeInput_change h]
    refine (inputRecorded_moves l v s).trans ?_
    split
    · exact .refl
    · exact inputFalls_moves l _

/-! ## The tick of a drive (R73 to R79) -/

theorem examineManual_moves (s : State) : Moves b g d s (examineManual b s) := by
  unfold examineManual
  split
  · next h => exact (Move.drive _ s fun _ _ _ hOk => hOk.examineManual h).run
  · exact .refl

theorem driveTick_moves (s : State) (h : g → PhaseRuns b s) (hd : d → (s.record b).owner ≠ .cell) : Moves b g d s (driveTick b s) := by
  have hStep : Moves b g d s (mapDrive b DriveLink.generatorStep s) :=
    (Move.drive _ s fun _ hd' _ hOk => hOk.generatorStep (hd hd')).run
  have hMessage : ∀ u, Moves b g d u (mapDrive b (fun d => d.settleMessage.sendMessage.ageReport) u) := fun u =>
    (Move.drive _ u fun _ _ _ hOk => hOk.messaged).run
  exact hStep.trans ((examineRamp_moves _ fun hg => (h hg).congr (by simp) (by simp)).trans
    ((examineEnding_moves _).trans ((examineManual_moves _).trans (hMessage _))))

/-! ## Commands of a bay -/

theorem runPresent_moves (serial : List Byte) (code : Nat) (s : State) : Moves b g d s (runPresent serial code b s).state := by
  unfold runPresent
  split
  · exact .refl
  split
  · exact .refl
  split
  · exact .refl
  split
  · exact .refl
  · exact (Move.load serial code s (not_not.mp ‹¬¬_›) ‹_› (by omega)).run

theorem beginPlan_state (v : VariantEntry) (s : State) : ((beginPlan b v s).record b).state = .running := by
  unfold beginPlan
  refine (state_of_frame (refreshLines_frame b b _) b).trans ?_
  simp

theorem runHandover_moves (s : State) : Moves b g d s (runHandover b s).state := by
  have hFrame : frame b (mapRecord b (fun r => { r with handoverTime := some s.now }) s) = frame b s := mapRecord_frame ..
  simp only [runHandover]
  split
  · exact .refl
  split
  · exact .refl
  split
  · exact .refl
  split
  · exact .refl
  split
  · exact .refl
  · next hOwner hState hCell _ _ =>
    refine (Moves.of_frame hFrame).trans ?_
    split
    · next v hv =>
      have hMem : v ∈ s.store.variants := List.mem_of_find?_eq_some hv
      refine Moves.trans (Move.start v _ (by simpa using hState) (by simpa using hOwner) (by simpa using hCell) (by simpa using hMem)).run
        ?_
      exact boundary_moves _ _ fun _ => beginPlan_state ..
    · exact (Move.divert _ _ (by simpa using hState) (by simpa using hOwner)).run

theorem runWithdraw_moves (s : State) : Moves b g d s (runWithdraw b s).state := by
  unfold runWithdraw
  split
  · exact .refl
  · next hOwner =>
    split
    · next h => exact (Move.divert _ s h hOwner).run
    · next h => exact enterAborting_moves _ s (.inl h)
    · next h => exact enterAborting_moves _ s (.inr (.inl h))
    · next h => exact enterAborting_moves _ s (.inr (.inr h))
    · exact .refl
    · exact .refl

theorem runAbort_moves (s : State) : Moves b g d s (runAbort b s).state := by
  unfold runAbort
  split
  · next h => exact enterAborting_moves _ s (.inl h)
  · next h => exact enterAborting_moves _ s (.inr (.inl h))
  · next h => exact enterAborting_moves _ s (.inr (.inr h))
  · exact .refl
  · exact .refl

theorem runRelease_moves (s : State) : Moves b g d s (runRelease b s).state := by
  simp only [runRelease]
  split
  · exact .refl
  split
  · exact .refl
  · next h hReport =>
    refine Moves.trans (Move.release s (not_not.mp h) (not_not.mp hReport)).run ?_
    show Moves b g d _ (if _ then _ else _)
    split
    · exact .refl
    · exact (Move.clear _ (by simp)).run

theorem runWriteLines_moves (p : PortId) (mask : BitVec 8) (v : Bool) (s : State) : Moves b g d s (runWriteLines p mask v b s).state := by
  simp only [runWriteLines]
  split
  · exact .refl
  split
  · exact .refl
  · exact .of_frame (mapRecord_frame ..)

theorem runConfigureBay_moves (speed width angle : Nat) (m : FunctionMap) (s : State) :
    Moves b g d s (runConfigureBay (clampedConfig speed width angle m) b s).state := by
  unfold runConfigureBay
  split
  · next h =>
    have hOk : (clampedConfig speed width angle m).Ok :=
      ⟨clampNat_bounds speed (by decide), clampNat_bounds width (by decide), (clampNat_bounds (lo := 0) angle (by decide)).2⟩
    exact (Move.config _ s h hOk).run
  · exact .refl

theorem runHold_moves (s : State) : Moves b g d s (runHold b s).state := by
  unfold runHold
  split
  · next h =>
    split
    · exact (Move.held _ s fun _ => h).run
    · exact .of_frame (mapRecord_frame ..)
  all_goals exact .refl

theorem resumeBay_moves (s : State) (h : (s.record b).state = .held) : Moves b g d s (resumeBay b s) :=
  Moves.trans (Move.resume s h).run (boundary_moves _ _ fun _ => by simp [beginResume])

theorem runResume_moves (s : State) : Moves b g d s (runResume b s).state := by
  unfold runResume
  split
  · next h => exact resumeBay_moves s h
  · exact .of_frame (mapRecord_frame ..)
  · exact .refl

theorem runTakeManual_moves (s : State) : Moves b g d s (runTakeManual b s).state := by
  simp only [runTakeManual]
  split
  · next h =>
    split
    · next ho => exact (Move.manual s h ho).run
    · exact .refl
    · exact .refl
  · exact .refl

theorem runReturnManual_moves (s : State) : Moves b g d s (runReturnManual b s).state := by
  unfold runReturnManual
  split
  · exact .refl
  · next ho =>
    split
    · next h => exact (Move.unmanned s (not_not.mp ho) h.1).run
    · exact .refl

theorem runJog_moves (v : Int) (s : State) : Moves b g d s (runJog v b s).state := by
  simp only [runJog]
  split
  · exact .refl
  · next ho =>
    have hOwner : (s.record b).owner = .cell := not_not.mp ho
    split
    · exact jogStop_moves s hOwner
    split
    · exact .refl
    split
    · exact .refl
    · refine Move.run (Move.drive (fun d => { d with
        jogTarget := jogSpeed (s.bay b).config.speedLimit v, target := jogSpeed (s.bay b).config.speedLimit v,
        rampRate := 200 }.manualEnable) s ?_)
      exact fun _ _ _ hOk => hOk.startJog v hOwner

end Moves

end Sys2Proof.Machine
end

section
/-! PROOF. What every command and event does, as a run of moves of one bay and of effects on the cell's own blocks. -/

namespace Sys2Proof.Machine

/-! ## What the step phases tell of a bay in order -/

section StepOk
variable {b : BayId} {s : State}

theorem Bay.StepOk.phaseRuns (h : (s.bay b).StepOk) : PhaseRuns b s := h.running

/-- A Leak Unit at work belongs to a step in progress. -/
theorem Bay.StepOk.leakRuns (h : (s.bay b).StepOk) (hLeak : (s.bay b).leak.phase ≠ .idle) : (s.record b).state = .running := by
  refine h.running fun hp => hLeak ?_
  have hPhase := h.leak
  rw [hp] at hPhase
  cases hl : (s.bay b).leak.phase <;> rw [hl] at hPhase <;> first | rfl | exact absurd hPhase (by decide)

/-- An acquisition belongs to a step in progress. -/
theorem Bay.StepOk.acquisitionRuns (h : (s.bay b).StepOk) {k : BufId} (hk : (s.bay b).noise.find .acquiring = some k) :
    (s.record b).state = .running := by
  have hState := NoiseUnit.get_find hk
  have hAcquiring : (s.bay b).noise.acquiring := by
    cases k
    · exact .inl hState
    · exact .inr hState
  refine h.running ?_
  rw [h.listening.mp hAcquiring]
  decide

end StepOk

/-! ## Events and commands of a bay -/

section Moves
variable {b : BayId} {g d : Prop}

theorem dwellDue_dwelling {s : State} {o : DwellOps} (h : dwellDue s b = some o) : (s.record b).phase = .dwelling := by
  unfold dwellDue at h
  dsimp only at h
  split at h
  · assumption
  · cases h

/-- An event of a bay is a run of moves of that bay. -/
theorem event_moves {i : Instr} {s t : State} (hPort : portOf i = none) (hBay : bayOf i = some b) (h : exec i s = .next t)
    (hg : g → (s.bay b).StepOk) : Moves b g d s t := by
  cases i <;> cases hPort <;> cases hBay <;> cases h
  case driveReport echo st speed torque check =>
    split
    · exact takeDriveReport_moves _ s fun hg' => (hg hg').phaseRuns
    · exact .refl
  case driveLost =>
    split
    · exact (mapDrive_moves s (by rfl)).trans (driveEvent_moves _ _)
    · exact .refl
  case rampTimeout =>
    split
    · exact takeFault_moves _ s
    · exact .refl
  case dwellEnd =>
    split
    · next o ho => exact finishDwell_moves o s fun hg' => (hg hg').running (by
        show (s.record b).phase ≠ _
        rw [dwellDue_dwelling ho]; decide)
    · exact .refl
  case windDownExpiry =>
    split
    · exact expireWindDown_moves s
    · exact .refl
  case holdExpired =>
    split
    · exact takeFault_moves _ s
    · exact .refl
  case pressureWord payload =>
    refine (Moves.of_frame (mapSensor_frame ..)).trans (offerPressure_moves _ _ fun hg' hv => ?_)
    rw [mapSensor_leak] at hv
    rw [mapSensor_recordOf]
    exact (hg hg').leakRuns (by rw [hv]; decide)
  case temperatureWord payload => exact .of_frame (mapSensor_frame ..)
  case vibrationWord payload =>
    refine (Moves.of_frame (mapSensor_frame ..)).trans (offerVibration_moves _ _ _ fun hg' k hk => ?_)
    rw [mapSensor_noise] at hk
    rw [mapSensor_recordOf]
    exact (hg hg').acquisitionRuns hk
  case foreignTagWord payload => exact .of_frame (mapSensor_frame ..)
  case wordBreak => exact .of_frame (mapSensor_frame ..)
  case silencePurge channel => exact .of_frame (mapSensor_frame ..)
  case pressureLoss =>
    split
    · split
      · exact loseChannel_moves _ s
      · exact .refl
    · exact .refl
  case temperatureLoss =>
    split
    · split
      · exact loseChannel_moves _ s
      · exact .refl
    · exact .refl
  case acquisitionTimeout =>
    split
    · next k hk =>
      refine failAcquisition_moves k _ s fun hg' => (hg hg').acquisitionRuns (k := k) ?_
      unfold acquisitionDue at hk
      split at hk
      · cases hk
      · next l hl =>
        dsimp only at hk
        split at hk
        · cases hk; exact hl
        · cases hk
    · exact .refl
  case fillLimitExpiry =>
    split
    · exact failFill_moves s
    · exact .refl
  case settleEnd =>
    split
    · exact enterMeasure_moves s
    · exact .refl
  case measureEnd =>
    split
    · split
      · exact endMeasure_moves _ _ s
      · exact .refl
    · exact .refl
  case ventLimitExpiry =>
    split
    · exact takeFault_moves _ s
    · exact .refl
  case inputLineChange line level => exact changeInput_moves line level s

/-- What a command of a bay does at its owning block is a run of moves of that bay. -/
theorem body_moves {i : Instr} {s : State} (hBay : bayOf i = some b) : Moves b g d s (bodyOf i s).state := by
  have hOn : ∀ (n : Nat) (f : BayId → State → Reply), bayOfCode n = some b → Moves b g d s (f b s).state →
      Moves b g d s (onBay n f s).state := fun n f hn hf => by rwa [onBay_valid f s hn]
  cases i <;> first | exact Relation.ReflTransGen.refl | exact absurd hBay.symm (Option.some_ne_none _) | skip
  case present => exact hOn _ _ hBay (runPresent_moves ..)
  case handover => exact hOn _ _ hBay (runHandover_moves ..)
  case withdraw => exact hOn _ _ hBay (runWithdraw_moves ..)
  case release => exact hOn _ _ hBay (runRelease_moves ..)
  case setLines => exact hOn _ _ hBay (runWriteLines_moves ..)
  case clearLines => exact hOn _ _ hBay (runWriteLines_moves ..)
  case readBay => exact hOn _ _ hBay .refl
  case configureBay => exact hOn _ _ hBay (runConfigureBay_moves ..)
  case hold => exact hOn _ _ hBay (runHold_moves ..)
  case resume => exact hOn _ _ hBay (runResume_moves ..)
  case abort => exact hOn _ _ hBay (runAbort_moves ..)
  case takeManual => exact hOn _ _ hBay (runTakeManual_moves ..)
  case returnManual => exact hOn _ _ hBay (runReturnManual_moves ..)
  case jog => exact hOn _ _ hBay (runJog_moves ..)
  case readLive => exact hOn _ _ hBay .refl

end Moves

/-! ## Effects on the cell's own blocks -/

/-- What a port holds beside its notices and their settings: the exchange of frames in progress. -/
def Port.exchange (p : Port) : Port := { p with notices := [], ntf := false, mask := 0, interval := 0, quietTimer := 0 }

theorem Port.exchange_of_unnoticed {p q : Port} (h : p.unnoticed = q.unnoticed) : p.exchange = q.exchange := by
  show p.unnoticed.exchange = q.unnoticed.exchange
  rw [h]

/-- What a command or event of no bay does, with what its block asked for first. With `e` the exchange on every port stays. -/
inductive Effect (e : Prop) (s : State) : State → Prop where
  | same : Effect e s s
  | reset (h : ¬e) : Effect e s (powerOn s)
  | clock : Effect e s (advanceTime s)
  | cellState (c : CellState) (h : c = .running ∨ s.cell.state = .running ∧ c = if anySequenced s then .stopping else .stopped) :
      Effect e s (setCellState c s)
  | settings (ramp threshold : Nat) :
      Effect e s { s with cell := { s.cell with stopRamp := ramp, backlogThreshold := threshold } }
  | cleared (h : s.cell.state = .stopped) : Effect e s { s with store := s.store.cleared }
  | opened (n : Nat) (hn : isPlanNumber n = true) (h : (s.store.entry n).state = .empty) :
      Effect e s (withStore (s.store.setEntry n { s.store.entry n with state := .loading }) s)
  | written (n k : Nat) (r : StepRecord) (hn : isPlanNumber n = true) (hk : k ≤ 254) (h : (s.store.entry n).state = .loading)
      (hOwn : ∀ o, s.store.slotAt k = some o → o.plan = n) : Effect e s (withStore (s.store.setSlot k (some ⟨n, r⟩)) s)
  | published (n head : Nat) (flag : Bool) (visited : List Nat) (total : Nat) (hn : isPlanNumber n = true)
      (h : (s.store.entry n).state = .loading) (hChain : s.store.judgeChain n head = .ok (visited, total)) :
      Effect e s (withStore (s.store.publish n head flag visited total) s)
  | emptied (n : Nat) (ps : Ports) (hn : isPlanNumber n = true)
      (h : (s.store.entry n).state = .loading ∨
        (s.store.entry n).state = .ready ∧ s.store.named n = false ∧ (s.store.entry n).refCount = 0)
      (hPorts : e → ∀ p, (State.port { s with ports := ps } p).exchange = (s.port p).exchange) :
      Effect e s { withStore (s.store.emptyPlan n) s with ports := ps }
  | retired (n : Nat) (hn : isPlanNumber n = true) (h : (s.store.entry n).state = .ready) (hNamed : s.store.named n = false) :
      Effect e s (withStore (s.store.setEntry n { s.store.entry n with state := .retiring }) s)
  | variant (v : VariantEntry) (hn : isPlanNumber v.plan = true) (h : (s.store.entry v.plan).state = .ready) :
      Effect e s (withStore { s.store with variants := insertVariant v s.store.variants } s)
  | unvariant (code : Nat) : Effect e s (withStore { s.store with variants := s.store.variants.filter (·.code ≠ code) } s)
  | common (i : Nat) (v : Int) : Effect e s (withStore (s.store.setCommon i v) s)
  | take (h : s.reports.queue ≠ []) : Effect e s (takeHead s)
  | ports (ps : Ports) (h : e → ∀ p, (State.port { s with ports := ps } p).exchange = (s.port p).exchange) :
      Effect e s { s with ports := ps }

theorem mapPort_effect {e : Prop} (p : PortId) (f : Port → Port) (s : State) (h : e → ∀ x, (f x).exchange = x.exchange) :
    Effect e s (mapPort p f s) :=
  .ports _ fun he q => by
    show ((mapPort p f s).port q).exchange = _
    rw [mapPort_port]
    split
    · next hq => rw [h he, hq]
    · rfl

theorem raise_exchange (n : Notice) (s : State) (p : PortId) : ((raise n s).port p).exchange = (s.port p).exchange := by
  rw [raise_port]
  exact Port.exchange_of_unnoticed (Port.offer_unnoticed n _)

/-- One move or effect. -/
def Stir (g d e : Prop) (s t : State) : Prop := Effect e s t ∨ ∃ b, Move b g d s t

abbrev Stirs (g d e : Prop) : State → State → Prop := Relation.ReflTransGen (Stir g d e)

section Stirs
variable {g d e : Prop}

theorem Effect.run {s t : State} (h : Effect e s t) : Stirs g d e s t := .single (.inl h)

theorem Moves.run {b : BayId} {s t : State} (h : Moves b g d s t) : Stirs g d e s t :=
  Relation.ReflTransGen.mono (fun _ _ hm => .inr ⟨b, hm⟩) _ _ h

theorem Stirs.keep {P : State → Prop} (hEffect : ∀ s t, Effect e s t → P s → P t) (hMove : ∀ b s t, Move b g d s t → P s → P t)
    {s t : State} (h : Stirs g d e s t) (hs : P s) : P t := by
  induction h with
  | refl => exact hs
  | tail _ hc ih => exact hc.elim (fun he => hEffect _ _ he ih) fun ⟨b, hm⟩ => hMove b _ _ hm ih

theorem runWriteVariant_effect (code n : Nat) (cells : Vector Int Config.variantCellCount) (s : State) :
    Effect e s (runWriteVariant code n cells s).state := by
  unfold runWriteVariant
  split
  · exact .same
  · next hRange =>
    split
    · exact .same
    · next hReady =>
      split
      · exact .same
      · rw [not_or, not_or, Bool.not_eq_false, Bool.not_eq_false] at hRange
        exact .variant ⟨code, n, cells⟩ hRange.2.1 (not_not.mp hReady)

theorem runWriteStep_effect {n : Nat} (k : Nat) (r : StepRecord) (s : State) (hn : isPlanNumber n = true) :
    Effect e s (runWriteStep n k r s).state := by
  unfold runWriteStep
  split
  · exact .same
  · next hRange =>
    split
    · exact .same
    · next hLoading =>
      split
      · exact .same
      · next hFree =>
        refine .written n k _ hn (by omega) (not_not.mp hLoading) fun o ho => ?_
        rw [ho] at hFree
        simpa using hFree

theorem runPublishPlan_effect {n : Nat} (head : Nat) (flag : Bool) (s : State) (hn : isPlanNumber n = true) :
    Effect e s (runPublishPlan n head flag s).state := by
  unfold runPublishPlan
  split
  · exact .same
  split
  · exact .same
  · next hLoading =>
    split
    · exact .same
    · next visited total hChain => exact .published n head flag visited total hn (not_not.mp hLoading) hChain

theorem runRetirePlan_effect {n : Nat} (s : State) (hn : isPlanNumber n = true) : Effect e s (runRetirePlan n s).state := by
  simp only [runRetirePlan]
  split
  · exact .same
  · next hReady =>
    have hState : (s.store.entry n).state = .ready := not_not.mp hReady
    split
    · exact .same
    · next hNamed =>
      have hFree : s.store.named n = false := Bool.eq_false_iff.mpr hNamed
      split
      · next hCount => exact .emptied n _ hn (.inr ⟨hState, hFree, hCount⟩) fun _ p => raise_exchange (.planRetired n) s p
      · exact .retired n hn hState hFree

/-- What a command of no bay does at its owning block. -/
theorem body_effect {i : Instr} {s : State} (hBay : bayOf i = none) : Effect e s (bodyOf i s).state := by
  have hOn : ∀ (n : Nat) (f : State → Reply), (isPlanNumber n = true → Effect e s (f s).state) → Effect e s (onPlan n f s).state := by
    intro n f hf
    by_cases hn : isPlanNumber n = true
    · rw [onPlan_valid f s hn]; exact hf hn
    · rw [onPlan_invalid f s (Bool.eq_false_iff.mpr hn)]; exact .same
  have hOff : ∀ (n : Nat) (f : BayId → State → Reply), bayOfCode n = none → Effect e s (onBay n f s).state := by
    intro n f hn
    rw [onBay_invalid f s hn]; exact .same
  cases i <;> first | exact Effect.same | exact hOff _ _ hBay | skip
  case nextNotice p =>
    show Effect e s (runNextNotice p s).state
    unfold runNextNotice
    split
    · exact .same
    · next rest _ => exact mapPort_effect p (Port.dropNotice rest) s fun _ _ => rfl
  case setNoticeMask p mask => exact mapPort_effect p (Port.setMask (mask.setWidth 10)) s fun _ _ => rfl
  case setNoticeInterval p ms =>
    exact mapPort_effect p (fun x => { x with interval := clampNat 0 1000 ms }) s fun _ _ => rfl
  case cellRun p =>
    show Effect e s (if s.cell.state = .running then s else setCellState .running s)
    split
    · exact .same
    · exact Effect.cellState .running (.inl rfl)
  case cellStop p =>
    show Effect e s (if s.cell.state = .running then setCellState (if anySequenced s then .stopping else .stopped) s else s)
    split
    · next h => exact Effect.cellState _ (.inr ⟨h, rfl⟩)
    · exact .same
  case clearTables p =>
    show Effect e s (runClearTables s).state
    unfold runClearTables
    split
    · next h => exact Effect.cleared h
    · exact .same
  case setCell p ramp threshold => exact Effect.settings ..
  case openPlan p n =>
    refine hOn n _ fun hn => ?_
    simp only [runOpenPlan]
    split
    · next h => exact Effect.opened n hn h
    · exact .same
  case writeStep p n k r => exact hOn n _ fun hn => runWriteStep_effect k r s hn
  case publishPlan p n head flag => exact hOn n _ fun hn => runPublishPlan_effect head flag s hn
  case discardPlan p n =>
    refine hOn n _ fun hn => ?_
    unfold runDiscardPlan
    split
    · next h => exact Effect.emptied n s.ports hn (.inl h) fun _ _ => rfl
    · exact .same
  case retirePlan p n => exact hOn n _ fun hn => runRetirePlan_effect s hn
  case readStep p k =>
    show Effect e s (runReadStep k s).state
    unfold runReadStep
    split
    · exact .same
    · split <;> exact .same
  case readPlan p n => exact hOn n _ fun _ => .same
  case writeVariant p code n cells => exact runWriteVariant_effect ..
  case deleteVariant p code =>
    show Effect e s (runDeleteVariant code s).state
    unfold runDeleteVariant
    split
    · exact .same
    split
    · exact .same
    · exact Effect.unvariant code
  case readVariant p code start =>
    show Effect e s (runReadVariant code start s).state
    unfold runReadVariant
    split
    · exact .same
    split
    · exact .same
    · split <;> exact .same
  case writeCell p k v =>
    show Effect e s (runWriteCell k v s).state
    unfold runWriteCell
    split
    · exact .same
    · exact Effect.common ..
  case readCell p k =>
    show Effect e s (runReadCell k s).state
    unfold runReadCell
    split <;> exact .same
  case peekReport p offset length =>
    show Effect e s (runPeekReport offset length s).state
    unfold runPeekReport
    split
    · exact .same
    · dsimp only
      split <;> exact .same
  case takeReport p n =>
    show Effect e s (runTakeReport n s).state
    unfold runTakeReport
    split
    · exact .same
    · next hq =>
      split
      · exact Effect.take (by rw [hq]; exact List.cons_ne_nil _ _)
      · exact .same

theorem body_stirs (i : Instr) (s : State) : Stirs g d e s (bodyOf i s).state := by
  cases hBay : bayOf i with
  | none => exact (body_effect hBay).run
  | some b => exact (body_moves hBay).run

theorem serve_stirs (p : PortId) (i : Instr) (s : State) : Stirs g d False s (serve p i (bodyOf i) s) := by
  by_cases h : p ∈ carriedOn i
  · rw [serve_carried _ _ h]
    exact (body_stirs i s).trans (mapPort_effect _ _ _ False.elim).run
  · rw [serve_foreign _ _ h]
    exact (mapPort_effect _ _ _ False.elim).run

theorem runCommand_stirs (i : Instr) (s : State) : Stirs g d False s (runCommand i s) := by
  cases hPort : portOf i with
  | none => rw [runCommand_event hPort]
  | some p => rw [runCommand_command hPort]; exact serve_stirs p i s

/-! ## The tick, bay by bay -/

theorem sensorTick_stirs (s : State) : Stirs g d e s (sensorTick s) := by
  have hFold : ∀ (bs : List BayId) (u : State), Stirs g d e u (bs.foldl (fun t b => mapSensor b SensorLink.tick t) u) := by
    intro bs
    induction bs with
    | nil => intro u; exact .refl
    | cons b bs ih => intro u; exact (Moves.of_frame (b := b) (mapSensor_frame ..)).run.trans (ih _)
  exact hFold _ s

/-- The bays' part of a tick. -/
def driveTicks (bs : List BayId) (s : State) : State := bs.foldl (fun t b => driveTick b t) s

theorem tick_eq (order : List BayId) (s : State) :
    tick order s = portTick (sensorTick (driveTicks (tickOrder order) (advanceTime s))) := rfl

/-- Without what the phases and the owners say, every tick of the drives is a run of moves. -/
theorem driveTicks_stirs (bs : List BayId) (s : State) : Stirs False False e s (driveTicks bs s) := by
  unfold driveTicks
  induction bs generalizing s with
  | nil => exact .refl
  | cons b bs ih => exact (driveTick_moves (b := b) s False.elim False.elim).run.trans (ih _)

theorem tick_stirs (order : List BayId) (s : State) : Stirs False False False s (tick order s) :=
  Effect.clock.run.trans ((driveTicks_stirs _ _).trans ((sensorTick_stirs _).trans (Effect.ports _ False.elim).run))

/-! ## Every command and event -/

/-- An event of no bay and no command is a run of moves and effects too. -/
theorem lone_stirs {i : Instr} {s t : State} (hPort : portOf i = none) (hBay : bayOf i = none) (h : exec i s = .next t)
    (hTick : ∀ order, i ≠ .millisecondTick order) : Stirs g d False s t := by
  cases i <;> first | exact absurd hPort (Option.some_ne_none _) | exact absurd hBay (Option.some_ne_none _) | skip
  case powerOnReset => cases h; exact (Effect.reset id).run
  case millisecondTick order => exact absurd rfl (hTick order)
  case reductionComplete =>
    cases h
    split
    · next j _ => exact (completeReduction_moves j s).run
    · exact .refl
  case quietTimerExpiry p => cases h; exact (mapPort_effect _ _ _ False.elim).run
  case transferStart p => cases h; exact (mapPort_effect _ _ _ False.elim).run
  case requestTaken p bytes extra => cases h; exact (mapPort_effect _ _ _ False.elim).run
  case responseReady p =>
    cases h
    refine Relation.ReflTransGen.trans ?_ (mapPort_effect _ _ _ False.elim).run
    unfold runRequest
    split
    · exact runCommand_stirs ..
    · exact .refl

/-- Every command and event but the tick is a run of moves and effects. -/
theorem exec_stirs {i : Instr} {s t : State} (h : exec i s = .next t) (hTick : ∀ order, i ≠ .millisecondTick order)
    (hg : g → ∀ b, (s.bay b).StepOk) : Stirs g d False s t := by
  cases hPort : portOf i with
  | some p =>
    rw [exec_command hPort] at h
    cases h
    exact serve_stirs p i s
  | none =>
    cases hBay : bayOf i with
    | some b => exact (event_moves hPort hBay h fun hg' => hg hg' b).run
    | none => exact lone_stirs hPort hBay h hTick

end Stirs

/-- Without what phases and owners say, every command and event is a run of moves and effects. -/
theorem exec_stirs_any {i : Instr} {s t : State} (h : exec i s = .next t) : Stirs False False False s t := by
  by_cases hTick : ∃ order, i = .millisecondTick order
  · obtain ⟨order, rfl⟩ := hTick
    cases h
    exact tick_stirs order s
  · exact exec_stirs h (fun order e => hTick ⟨order, e⟩) False.elim

/-- What every move and effect keeps, every step keeps. -/
theorem step_keep_of_stir {P : State → Prop} (hQueue : ∀ s cs, P s → P { s with pending := cs })
    (hEffect : ∀ s t, Effect False s t → P s → P t) (hMove : ∀ b s t, Move b False False s t → P s → P t) {s t : State} (h : P s)
    (hStep : step s = .next t) : P t :=
  step_keep hQueue (fun _ _ _ hs hExec => (exec_stirs_any hExec).keep hEffect hMove hs) h hStep

end Sys2Proof.Machine
end

section
/-! PROOF. What one move of a bay leaves: of the other bays, of the ports, of its own record and drive, and of the blocks that all
bays share. -/

namespace Sys2Proof.Machine

/-! ## The records that the moves write -/

theorem beginPlan_record_same (b : BayId) (v : VariantEntry) (s : State) : ∃ l, (beginPlan b v s).record b = { s.record b with
    planNumber := some v.plan, planVersion := some (s.store.entry v.plan).version, slot := (s.store.entry v.plan).head,
    owner := .sequencer, state := .running, lines := l } := by
  simp only [beginPlan, refreshLines_record, mapDrive_recordOf, mapSensor_recordOf, setBayState_record_same, setOwner_record_same,
    mapRecord_recordOf_same]
  exact ⟨_, rfl⟩

theorem beginPlan_bay_other {b c : BayId} (v : VariantEntry) (s : State) (h : c ≠ b) : (beginPlan b v s).bay c = s.bay c := by
  simp only [beginPlan]
  rw [refreshLines_bay_other _ h, mapDrive_bay_other _ _ h, mapSensor_bay_other _ _ h, setBayState_bay_other _ _ h,
    setOwner_bay_other _ _ h, mapRecord_bay_other _ _ h]
  rfl

theorem loadAxle_bay_other {b c : BayId} (serial : List Byte) (code : Nat) (s : State) (h : c ≠ b) :
    (loadAxle b serial code s).bay c = s.bay c := by
  rw [loadAxle, setBayState_bay_other _ _ h, mapRecord_bay_other _ _ h]

theorem divertBay_bay_other {b c : BayId} (cause : Cause) (s : State) (h : c ≠ b) : (divertBay b cause s).bay c = s.bay c := by
  rw [divertBay, handReport_bay_other _ _ h, setBayState_bay_other _ _ h, mapRecord_bay_other _ _ h]

theorem postResult_bay_other {b c : BayId} (res : Result) (s : State) (h : c ≠ b) : (postResult b res s).bay c = s.bay c := by
  unfold postResult
  split
  · exact mapRecord_bay_other _ _ h
  · rfl

theorem enterHeld_bay_other {b c : BayId} (point : HoldPoint) (s : State) (h : c ≠ b) : (enterHeld b point s).bay c = s.bay c := by
  rw [enterHeld, setBayState_bay_other _ _ h, mapRecord_bay_other _ _ h]

theorem beginResume_bay_other {b c : BayId} (s : State) (h : c ≠ b) : (beginResume b s).bay c = s.bay c := by
  rw [beginResume, setBayState_bay_other _ _ h, mapRecord_bay_other _ _ h]

theorem beginClosing_bay_other {b c : BayId} (s : State) (h : c ≠ b) : (beginClosing b s).bay c = s.bay c := by
  rw [beginClosing, refreshLines_bay_other _ h, startWindDown, mapDrive_bay_other _ _ h, setBayState_bay_other _ _ h,
    mapRecord_bay_other _ _ h]

theorem enterEmpty_bay_other {b c : BayId} (s : State) (h : c ≠ b) : (enterEmpty b s).bay c = s.bay c := by
  rw [enterEmpty, setBayState_bay_other _ _ h, mapRecord_bay_other _ _ h]

/-- Of another bay an abort moves what a grant of the manifold moves. -/
theorem beginAborting_seen {b c : BayId} (cause : Cause) (s : State) (h : c ≠ b) :
    ((beginAborting b cause s).bay c).seen false = (s.bay c).seen false := by
  have hFrame : frame b (endLeak b (cancelReductions b (abortRecorded b cause s))) = frame b (abortRecorded b cause s) :=
    (endLeak_frame ..).trans (cancelReductions_frame ..)
  have hSeen := congrFun (congrArg Frame.bay hFrame) c
  simp only [frame, h, decide_false] at hSeen
  rw [beginAborting_bay_other _ _ h, hSeen, abortRecorded_bay_other _ _ h]

/-! ## The other bays and the ports -/

variable {b : BayId} {g d : Prop}

/-- Of the other bays a move changes no more than a grant of the manifold and the engine do. -/
theorem Move.seen {s t : State} (h : Move b g d s t) {c : BayId} (hc : c ≠ b) : (t.bay c).seen false = (s.bay c).seen false := by
  cases h with
  | still h =>
    have hSeen := congrFun (congrArg Frame.bay h) c
    simpa only [frame, hc, decide_false] using hSeen
  | drive f => rw [mapDrive_bay_other _ _ hc]
  | config f => rw [mapBay_bay_other _ _ hc]
  | manual => rw [setOwner_bay_other _ _ hc]
  | unmanned => rw [setOwner_bay_other _ _ hc, mapDrive_bay_other _ _ hc]
  | load => rw [loadAxle_bay_other _ _ _ hc]
  | start => rw [beginPlan_bay_other _ _ hc]
  | divert => rw [divertBay_bay_other _ _ hc]
  | post => rw [postResult_bay_other _ _ hc]
  | held => rw [enterHeld_bay_other _ _ hc]
  | resume => rw [beginResume_bay_other _ hc]
  | closing => rw [beginClosing_bay_other _ hc]
  | aborting => exact beginAborting_seen _ _ hc
  | finish => rw [finishBay_bay_other _ _ hc]
  | release => rw [setBayState_bay_other _ _ hc]
  | clear => rw [enterEmpty_bay_other _ hc]

theorem Bay.seen_other {x y : Bay} (h : y.seen false = x.seen false) : y.config = x.config ∧ y.record.ungranted = x.record.ungranted ∧
    y.drive = x.drive ∧ y.sensor = x.sensor ∧ y.noise.contents = x.noise.contents := by
  simp only [Bay.seen, Bool.false_eq_true, if_false, Bay.mk.injEq] at h
  obtain ⟨hConfig, hRecord, hDrive, hSensor, hNoise, -⟩ := h
  exact ⟨hConfig, hRecord, hDrive, hSensor, hNoise⟩

theorem Bay.seen_refl_of_core {x y : Bay} (h : y.seen false = x.seen false) : y.record.core = x.record.core :=
  BayRecord.core_of_ungranted (Bay.seen_other h).2.1

/-- The records of the other bays keep their core. -/
theorem Move.core {s t : State} (h : Move b g d s t) {c : BayId} (hc : c ≠ b) : (t.record c).core = (s.record c).core :=
  Bay.seen_refl_of_core (h.seen hc)

theorem Raised.unnoticed {s t : State} (h : Raised s t) (p : PortId) : (t.port p).unnoticed = (s.port p).unnoticed := h.same p

theorem refreshLines_raised (b : BayId) (s : State) : Raised s (refreshLines b s) := by
  obtain ⟨-, -, -, -, hPorts, -⟩ := State.rest_eq_iff.mp (refreshLines_rest b s)
  exact .of_ports hPorts

theorem beginPlan_raised (b : BayId) (v : VariantEntry) (s : State) : Raised s (beginPlan b v s) := by
  refine Raised.trans ?_ (refreshLines_raised b _)
  have hStarted : Raised s (mapRecord b (fun r =>
      { r with planNumber := some v.plan, planVersion := some (s.store.entry v.plan).version, slot := (s.store.entry v.plan).head })
      (takeReference v.plan s)) := .of_ports rfl
  exact (hStarted.trans ((setOwner_raised ..).trans (setBayState_raised ..))).trans (.of_ports rfl)

theorem beginClosing_raised (b : BayId) (s : State) : Raised s (beginClosing b s) := by
  refine Raised.trans ?_ (refreshLines_raised b _)
  have hRecorded : Raised s (mapRecord b (fun r =>
    { r with phase := .none, holdRequest := false, holdPoint := none, latched := none, startTemperature := none }) s) := .of_ports rfl
  exact (hRecorded.trans (setBayState_raised ..)).trans (.of_ports rfl)

theorem postResult_shared (b : BayId) (res : Result) (s : State) : (postResult b res s).cell = s.cell ∧
    (postResult b res s).store = s.store ∧ (postResult b res s).reports = s.reports ∧ (postResult b res s).pending = s.pending ∧
    (postResult b res s).ports = s.ports := by
  unfold postResult
  split <;> exact ⟨rfl, rfl, rfl, rfl, rfl⟩

/-- A move changes no port but for its notices. -/
theorem Move.unnoticed {s t : State} (h : Move b g d s t) (p : PortId) : (t.port p).unnoticed = (s.port p).unnoticed := by
  cases h with
  | still h => exact congrFun (congrArg Frame.port h) p
  | drive | config => rfl
  | manual => exact (setOwner_raised ..).same p
  | unmanned => exact (setOwner_raised ..).same p
  | load => exact (setBayState_raised ..).same p
  | start v => exact (beginPlan_raised ..).same p
  | divert cause => exact (divertBay_raised ..).same p
  | post res => exact (Raised.of_ports (postResult_shared b res s).2.2.2.2).same p
  | held => exact (setBayState_raised ..).same p
  | resume => exact (setBayState_raised ..).same p
  | closing => exact (beginClosing_raised ..).same p
  | aborting => exact (beginAborting_offered ..).1.same p
  | finish => exact ((leavePlan_raised ..).trans (finishBay_raised ..)).same p
  | release => exact (setBayState_raised ..).same p
  | clear => exact (setBayState_raised ..).same p

end Sys2Proof.Machine
end

section
/-! PROOF. Every step keeps the running verdicts and the verdicts of the reports (R64, R68), and the lengths of frames and serial numbers
(09, Byte layouts; R10). -/

namespace Sys2Proof.Machine

variable {b : BayId} {g d : Prop}

/-! ## Records with the same core -/

theorem BayRecord.of_core {r q : BayRecord} (h : r.core = q.core) : r.state = q.state ∧ r.owner = q.owner ∧ r.serial = q.serial ∧
    r.planNumber = q.planNumber ∧ r.holdStart = q.holdStart ∧ r.reportStatus = q.reportStatus ∧ r.verdict = q.verdict ∧
    r.results = q.results := by
  simp only [BayRecord.core, BayRecord.mk.injEq, true_and, and_true] at h
  obtain ⟨hState, hOwner, hSerial, hPlan, hHold, hVerdict, hResults, hReport⟩ := h
  exact ⟨hState, hOwner, hSerial, hPlan, hHold, hReport, hVerdict, hResults⟩

theorem beginClosing_record_same (b : BayId) (s : State) : ∃ l, (beginClosing b s).record b = { s.record b with
    state := .closing, phase := .none, holdRequest := false, holdPoint := none, latched := none, startTemperature := none,
    lines := l } := by
  simp only [beginClosing, refreshLines_record, startWindDown, mapDrive_recordOf, setBayState_record_same, mapRecord_recordOf_same]
  exact ⟨_, rfl⟩

theorem divertBay_record_same (b : BayId) (cause : Cause) (s : State) : (divertBay b cause s).record b = { s.record b with
    state := .finished, cause := some cause,
    reportStatus := if s.reports.queue.length < Config.reportCapacity then .committed else .waiting } := by
  rw [divertBay_eq, handReport_record, if_pos rfl, diverted_record]
  rfl

theorem config_record (b c : BayId) (f : Bay → BayConfig) (s : State) :
    (mapBay b (fun x => { x with config := f x }) s).record c = s.record c := by
  rw [State.record, mapBay_bay]
  split
  · next h => rw [h]; rfl
  · rfl

/-! ## Verdicts (R64, R68) -/

theorem worstOf_append (rs : List Result) (r : Result) : worstOf (rs ++ [r]) = worse (worstOf rs) r.verdict := by
  simp [worstOf]

/-- A move keeps the running verdict of its bay the worst of its results. -/
theorem Move.verdict {s t : State} (h : Move b g d s t) (hs : (s.record b).verdict = worstOf (s.record b).results) :
    (t.record b).verdict = worstOf (t.record b).results := by
  cases h with
  | still h =>
    obtain ⟨-, -, -, -, -, -, hVerdict, hResults⟩ := BayRecord.of_core (frame_own h).2.1
    rw [hVerdict, hResults, hs]
  | drive => simpa using hs
  | config => rw [config_record]; exact hs
  | manual | unmanned | held | resume | release => simpa [enterHeld, beginResume] using hs
  | load | clear => simp [loadAxle, enterEmpty, BayRecord.cleared, BayRecord.reset, worstOf]
  | start v =>
    obtain ⟨l, hRecord⟩ := beginPlan_record_same b v s
    rw [hRecord]; exact hs
  | divert => rw [divertBay_record_same]; exact hs
  | post res =>
    unfold postResult
    split
    · simp [worstOf_append, hs]
    · exact hs
  | closing =>
    obtain ⟨l, hRecord⟩ := beginClosing_record_same b s
    rw [hRecord]; exact hs
  | aborting cause =>
    obtain ⟨n, l, hRecord, -⟩ := beginAborting_record b cause s
    rw [hRecord]; exact hs
  | finish v => rw [finishBay_record_same]; exact hs

/-- The Report Queue between two states: as it was, or with a report of bay `b` handed to it, whose verdict is the worst of its results
when it tells of a completed CLOSING. -/
def Handed (b : BayId) (s t : State) : Prop :=
  ∃ rep : Report, (rep.verdict.graded → rep.verdict = closingVerdict (worstOf rep.results)) ∧ ∃ u : State, u.reports = s.reports ∧
    t.reports = (handReport b rep u).reports

theorem Move.handed {s t : State} (h : Move b g d s t) : t.reports = s.reports ∨ Handed b s t := by
  cases h with
  | still h => exact .inl (congrArg Frame.reports h)
  | drive | config | manual | unmanned | load | held | resume | release | clear => exact .inl rfl
  | start v =>
    obtain ⟨-, -, -, hReports, -⟩ := State.rest_eq_iff.mp (refreshLines_rest b (mapDrive b (fun d => { d with
      enable := true, target := 0, x := 0 }) (mapSensor b (fun l => { l with lossWatch := some LossWatch.started })
      (setBayState b .running (setOwner b .sequencer (mapRecord b (fun r => { r with
        planNumber := some v.plan, planVersion := some (s.store.entry v.plan).version, slot := (s.store.entry v.plan).head })
        (takeReference v.plan s)))))))
    exact .inl hReports
  | divert cause =>
    refine .inr ⟨buildReport b .diverted (diverted b cause s), fun h => ?_, diverted b cause s, rfl, rfl⟩
    simp [buildReport, FinalVerdict.graded] at h
  | post res => exact .inl (postResult_shared b res s).2.2.1
  | closing =>
    obtain ⟨-, -, -, hReports, -⟩ := State.rest_eq_iff.mp (refreshLines_rest b (startWindDown b (setBayState b .closing
      (mapRecord b (fun r => { r with
        phase := .none, holdRequest := false, holdPoint := none, latched := none, startTemperature := none }) s))))
    exact .inl hReports
  | aborting cause => exact .inl (beginAborting_shared b cause s).2.2.1
  | finish v _ _ hVerdict =>
    refine .inr ⟨buildReport b v (leavePlan b s), fun h => ?_, leavePlan b s, leavePlan_reports b s, ?_⟩
    · rw [buildReport_leavePlan] at h ⊢
      exact hVerdict h
    · rw [finishBay_eq, cellStopCheck_reports]

/-- A report whose verdict, of a completed CLOSING, is the worst of its results. -/
def Report.Graded (r : Report) : Prop := r.verdict.graded → r.verdict = closingVerdict (worstOf r.results)

def ReportQueue.Graded (q : ReportQueue) : Prop := ∀ r ∈ q.queue ++ q.waiting.map (·.report), r.Graded

theorem handReport_graded {rep : Report} {s : State} (hs : s.reports.Graded) (hr : rep.Graded) : (handReport b rep s).reports.Graded := by
  intro r hMem
  rw [handReport_reports] at hMem
  split at hMem
  · simp only [commit_reports, List.mem_append, List.mem_singleton] at hMem
    obtain (h | rfl) | h := hMem
    · exact hs r (List.mem_append_left _ h)
    · exact hr
    · exact hs r (List.mem_append_right _ h)
  · simp only [List.map_append, List.map_cons, List.map_nil, List.mem_append, List.mem_singleton] at hMem
    obtain h | h | rfl := hMem
    · exact hs r (List.mem_append_left _ h)
    · exact hs r (List.mem_append_right _ h)
    · exact hr

theorem takeHead_graded {s : State} (hs : s.reports.Graded) : (takeHead s).reports.Graded := by
  have hQueue : ∀ r ∈ s.reports.queue.drop 1, r.Graded := fun r h => hs r (List.mem_append_left _ (List.mem_of_mem_drop h))
  have hWaiting : ∀ w ∈ s.reports.waiting, w.report.Graded := fun w h => hs _ (List.mem_append_right _ (List.mem_map_of_mem h))
  intro r hMem
  rw [takeHead_reports] at hMem
  split at hMem
  · next h =>
    rw [h, List.map_nil, List.append_nil] at hMem
    exact hQueue r hMem
  · next w ws h =>
    simp only [List.mem_append, List.mem_singleton, List.mem_map] at hMem
    obtain (hr | rfl) | ⟨v, hv, rfl⟩ := hMem
    · exact hQueue r hr
    · exact hWaiting w (by rw [h]; exact List.mem_cons_self)
    · exact hWaiting v (by rw [h]; exact List.mem_cons_of_mem _ hv)

theorem VerdictsOk.of_move {s t : State} (hs : VerdictsOk s) (h : Move b g d s t) : VerdictsOk t where
  running c := by
    by_cases hc : c = b
    · subst hc; exact h.verdict (hs.running c)
    · obtain ⟨-, -, -, -, -, -, hVerdict, hResults⟩ := BayRecord.of_core (h.core hc)
      rw [hVerdict, hResults]; exact hs.running c
  queued := by
    obtain hr | ⟨rep, hGraded, u, hu, hr⟩ := h.handed
    · rw [hr]; exact hs.queued
    · rw [hr]
      have hQueue : u.reports.Graded := by rw [hu]; exact hs.queued
      exact handReport_graded hQueue hGraded

/-- Verdicts do not hang on what else a state holds. -/
theorem VerdictsOk.congr {s t : State} (hs : VerdictsOk s)
    (hRecords : ∀ c, (t.record c).verdict = (s.record c).verdict ∧ (t.record c).results = (s.record c).results)
    (hReports : t.reports = s.reports) : VerdictsOk t :=
  ⟨fun c => by rw [(hRecords c).1, (hRecords c).2]; exact hs.running c, by rw [hReports]; exact hs.queued⟩

theorem verdictsOk_powerOn (s : State) : VerdictsOk (powerOn s) :=
  ⟨fun c => by rw [powerOn_record]; rfl, by rw [powerOn_reports]; exact fun _ h => absurd h (by simp [State.reset])⟩

theorem VerdictsOk.of_effect {s t : State} (hs : VerdictsOk s) (h : Effect False s t) : VerdictsOk t := by
  cases h with
  | reset => exact verdictsOk_powerOn s
  | take =>
    refine ⟨fun c => ?_, takeHead_graded hs.queued⟩
    rw [takeHead_record]
    split <;> exact hs.running c
  | _ => exact hs.congr (fun _ => ⟨rfl, rfl⟩) rfl

/-- Settles O5: the numbers by the changes of the queue, the verdicts by the moves of the bays. -/
theorem reportsStayNumberedAndGraded : Obligations.ReportsStayNumberedAndGraded :=
  ⟨fun _ _ hs hStep => step_keep_of_change (fun _ _ ⟨h1, h2, h3, h4⟩ => ⟨h1, h2, h3, h4⟩) (fun _ _ h hs => h.queueOk hs) hs hStep,
    fun _ _ hs hStep => step_keep_of_stir (fun _ _ h => h.congr (fun _ => ⟨rfl, rfl⟩) rfl) (fun _ _ h hs => hs.of_effect h)
      (fun _ _ _ h hs => hs.of_move h) hs hStep⟩

end Sys2Proof.Machine
end

section
/-! PROOF. What the answer of every command keeps to: a refusal changes nothing and carries no payload (R9, R169), and a payload fits its
frame (R168; 09, Byte layouts). -/

namespace Sys2Proof.Machine

/-! ## Replies -/

/-- A reply from state `s` as every command gives it: refused, it changes nothing and carries a payload only with PLAN_INVALID; and its
payload fits a frame while the serial numbers and the waiting list have their lengths. -/
structure Reply.Proper (s : State) (r : Reply) : Prop where
  same : r.status ≠ .ok → r.state = s
  empty : r.status ≠ .ok → r.status ≠ .planInvalid → r.payload = []
  fits : (∀ b bs, (s.record b).serial = some bs → bs.length ≤ 20) → s.reports.waiting.length ≤ 4 → r.payload.length ≤ 56

theorem proper_refuse (st : Status) (s : State) : (refuse st s).Proper s := ⟨fun _ => rfl, fun _ _ => rfl, fun _ _ => Nat.zero_le _⟩

theorem proper_accept {payload : List Byte} {s : State} (t : State) (h : payload.length ≤ 56) : (accept payload t).Proper s :=
  ⟨fun hOk => absurd rfl hOk, fun hOk => absurd rfl hOk, fun _ _ => h⟩

theorem proper_silent (s t : State) : (accept [] t).Proper s := proper_accept t (Nat.zero_le _)

theorem proper_ite {c : Prop} [Decidable c] {x y : Reply} {s : State} (hx : x.Proper s) (hy : y.Proper s) :
    (if c then x else y).Proper s := by
  split <;> assumption

theorem proper_onBay {n : Nat} {f : BayId → State → Reply} {s : State} (h : ∀ b, (f b s).Proper s) : (onBay n f s).Proper s := by
  unfold onBay
  split
  · exact h _
  · exact proper_refuse ..

theorem proper_onPlan {n : Nat} {f : State → Reply} {s : State} (h : (f s).Proper s) : (onPlan n f s).Proper s :=
  proper_ite h (proper_refuse ..)

/-! ## Lengths of optional fields (R170) -/

theorem length_bytesOfOption {α : Type} {k : Nat} (o : Option α) (f : α → List Byte) (h : ∀ x, (f x).length = k) :
    (bytesOfOption k (o.map f)).length = k + 1 := by
  cases o with
  | none => simp [bytesOfOption]
  | some x => simp [bytesOfOption, h]

theorem length_serialBytes {o : Option (List Byte)} (h : ∀ bs, o = some bs → bs.length ≤ 20) : (serialBytes o).length ≤ 22 := by
  cases o with
  | none => simp [serialBytes, bytesOfOption]
  | some bs =>
    have hLength := h bs rfl
    simp [serialBytes, bytesOfOption]
    omega

theorem length_recordBytes {r : BayRecord} (h : ∀ bs, r.serial = some bs → bs.length ≤ 20) : (recordBytes r).length ≤ 56 := by
  have hSerial := length_serialBytes h
  simp [recordBytes, byteOfBool, length_bytesOfOption]
  omega

theorem length_liveBytes (x : Bay) : (liveBytes x).length = 51 := by
  unfold liveBytes
  simp [byteOfBool, length_bytesOfOption]

theorem length_queueStatusBytes {q : ReportQueue} (h : q.waiting.length ≤ 4) : (queueStatusBytes q).length ≤ 56 := by
  simp [queueStatusBytes, byteOfBool, length_bytesOfOption]
  omega

theorem length_variantListBytes (start : Nat) (vs : List VariantEntry) : (variantListBytes start vs).length = 49 := by
  have hCodes : ∀ l : List Nat, (l.map (bytesOf 2)).flatten.length = 2 * l.length := fun l => by
    rw [length_flatten_map (n := 2) fun _ => length_bytesOf ..]
  have hRoom : (((vs.drop start).take 24).map (·.code)).length ≤ 24 := by simp
  simp only [variantListBytes, List.length_append, hCodes, List.length_replicate, length_bytesOf]
  omega

theorem length_peekBytes (bytes : List Byte) (offset length : Nat) : (peekBytes bytes offset length).length ≤ 48 := by
  have hClamp := (clampNat_bounds (lo := 0) (hi := 48) length (by omega)).2
  simp only [peekBytes, List.length_take]
  omega

theorem length_noticeDetail (n : Notice) (s : State) : (noticeDetail n s).length = 4 := by
  cases n <;> simp [noticeDetail, byteOfBool]

/-! ## The commands of a bay -/

variable (b : BayId) (s : State)

theorem proper_present (serial : List Byte) (code : Nat) : (runPresent serial code b s).Proper s :=
  proper_ite (proper_refuse ..) (proper_ite (proper_refuse ..) (proper_ite (proper_refuse ..)
    (proper_ite (proper_refuse ..) (proper_silent ..))))

theorem proper_handover : (runHandover b s).Proper s := by
  refine proper_ite (proper_refuse ..) (proper_ite (proper_refuse ..) (proper_ite (proper_refuse ..) (proper_ite (proper_refuse ..)
    (proper_ite (proper_refuse ..) ?_))))
  dsimp only
  split <;> exact proper_accept _ (by simp)

theorem proper_withdraw : (runWithdraw b s).Proper s := by
  refine proper_ite (proper_refuse ..) ?_
  split
  case h_6 => exact proper_refuse ..
  all_goals exact proper_silent ..

theorem proper_release : (runRelease b s).Proper s :=
  proper_ite (proper_refuse ..) (proper_ite (proper_refuse ..) (proper_silent ..))

theorem proper_abort : (runAbort b s).Proper s := by
  unfold runAbort
  split
  case h_5 => exact proper_refuse ..
  all_goals exact proper_silent ..

theorem proper_writeLines (p : PortId) (mask : BitVec 8) (v : Bool) : (runWriteLines p mask v b s).Proper s :=
  proper_ite (proper_refuse ..) (proper_ite (proper_refuse ..) (proper_accept _ (by simp)))

theorem proper_readBay : (runReadBay b s).Proper s :=
  ⟨fun h => absurd rfl h, fun h => absurd rfl h, fun hSerial _ => length_recordBytes (hSerial b)⟩

theorem proper_hold : (runHold b s).Proper s := by
  unfold runHold
  split
  · exact proper_ite (proper_silent ..) (proper_silent ..)
  · exact proper_silent ..
  · exact proper_refuse ..
  · exact proper_refuse ..

theorem proper_resume : (runResume b s).Proper s := by
  unfold runResume
  split
  · exact proper_silent ..
  · exact proper_silent ..
  · exact proper_refuse ..

theorem proper_takeManual : (runTakeManual b s).Proper s := by
  refine proper_ite ?_ (proper_refuse ..)
  split
  · exact proper_silent ..
  · exact proper_silent ..
  · exact proper_refuse ..

theorem proper_returnManual : (runReturnManual b s).Proper s :=
  proper_ite (proper_refuse ..) (proper_ite (proper_silent ..) (proper_refuse ..))

theorem proper_jog (speed : Int) : (runJog speed b s).Proper s :=
  proper_ite (proper_refuse ..) (proper_ite (proper_accept _ (by simp)) (proper_ite (proper_refuse ..)
    (proper_ite (proper_refuse ..) (proper_accept _ (by simp)))))

theorem proper_readLive : (runReadLive b s).Proper s := proper_accept _ (by rw [length_liveBytes]; omega)

theorem proper_configureBay (c : BayConfig) : (runConfigureBay c b s).Proper s :=
  proper_ite (proper_accept _ (by simp [configBytes])) (proper_refuse ..)

/-! ## The commands of the cell and the Plan Store -/

theorem proper_nextNotice (p : PortId) : (runNextNotice p s).Proper s := by
  unfold runNextNotice
  split
  · exact proper_accept _ (by decide)
  · exact proper_accept _ (by simp [byteOfBool, length_noticeDetail])

theorem proper_clearTables : (runClearTables s).Proper s := proper_ite (proper_silent ..) (proper_refuse ..)

theorem proper_openPlan (n : Nat) : (runOpenPlan n s).Proper s := proper_ite (proper_silent ..) (proper_refuse ..)

theorem proper_writeStep (n k : Nat) (r : StepRecord) : (runWriteStep n k r s).Proper s :=
  proper_ite (proper_refuse ..) (proper_ite (proper_refuse ..) (proper_ite (proper_refuse ..) (proper_accept _ (by simp))))

theorem length_publishErrorBytes (e : PublishError) : (publishErrorBytes e).length = 2 := by
  cases e <;> rfl

theorem proper_publishPlan (n head : Nat) (flag : Bool) : (runPublishPlan n head flag s).Proper s := by
  refine proper_ite (proper_refuse ..) (proper_ite (proper_refuse ..) ?_)
  split
  · next e _ => exact ⟨fun _ => rfl, fun _ h => absurd rfl h, fun _ _ => by simp [length_publishErrorBytes]⟩
  · exact proper_accept _ (by simp)

theorem proper_discardPlan (n : Nat) : (runDiscardPlan n s).Proper s := proper_ite (proper_accept _ (by simp)) (proper_refuse ..)

theorem proper_retirePlan (n : Nat) : (runRetirePlan n s).Proper s :=
  proper_ite (proper_refuse ..) (proper_ite (proper_refuse ..) (proper_ite (proper_accept _ (by simp)) (proper_accept _ (by simp))))

theorem proper_readStep (k : Nat) : (runReadStep k s).Proper s := by
  refine proper_ite (proper_refuse ..) ?_
  split
  · exact proper_accept _ (by simp)
  · exact proper_accept _ (by rw [length_stepBytes]; omega)

theorem proper_readPlan (n : Nat) : (runReadPlan n s).Proper s :=
  proper_accept _ (by simp [byteOfBool, length_bytesOfOption])

theorem proper_writeVariant (code n : Nat) (cells : Vector Int Config.variantCellCount) : (runWriteVariant code n cells s).Proper s :=
  proper_ite (proper_refuse ..) (proper_ite (proper_refuse ..) (proper_ite (proper_refuse ..) (proper_silent ..)))

theorem proper_deleteVariant (code : Nat) : (runDeleteVariant code s).Proper s :=
  proper_ite (proper_refuse ..) (proper_ite (proper_refuse ..) (proper_silent ..))

theorem proper_readVariant (code start : Nat) : (runReadVariant code start s).Proper s := by
  refine proper_ite (proper_accept _ (by rw [length_variantListBytes]; omega)) (proper_ite (proper_refuse ..) ?_)
  split
  · next v _ =>
    refine proper_accept _ ?_
    rw [List.length_append, length_flatten_map (n := 3) fun _ => length_bytesOfInt ..]
    simp [Config.variantCellCount]
  · exact proper_refuse ..

theorem proper_writeCell (i : Nat) (v : Int) : (runWriteCell i v s).Proper s :=
  proper_ite (proper_refuse ..) (proper_accept _ (by simp))

theorem proper_readCell (i : Nat) : (runReadCell i s).Proper s := proper_ite (proper_refuse ..) (proper_accept _ (by simp))

/-! ## The commands of the Report Queue -/

theorem proper_peekReport (offset length : Nat) : (runPeekReport offset length s).Proper s := by
  unfold runPeekReport
  split
  · exact proper_refuse ..
  · next rep _ _ =>
    refine proper_ite (proper_refuse ..) (proper_accept _ ?_)
    have hPeek := length_peekBytes (reportBytes rep) offset length
    simp
    omega

theorem proper_takeReport (n : Nat) : (runTakeReport n s).Proper s := by
  unfold runTakeReport
  split
  · exact proper_refuse ..
  · refine proper_ite (proper_accept _ ?_) (proper_refuse ..)
    have hCommitted : (bytesOfOption 5 (committedByTake s.reports)).length = 6 := length_bytesOfOption _ _ fun _ => by simp
    simp [hCommitted]

theorem proper_queueStatus : (runQueueStatus s).Proper s :=
  ⟨fun h => absurd rfl h, fun h => absurd rfl h, fun _ hWaiting => length_queueStatusBytes hWaiting⟩

/-- Every command's answer is proper. -/
theorem bodyOf_proper (i : Instr) : (bodyOf i s).Proper s := by
  cases i with
  | nextNotice p => exact proper_nextNotice s p
  | setNoticeMask | setNoticeInterval => exact proper_accept _ (by simp)
  | present _ _ serial code => exact proper_onBay fun b => proper_present b s serial code
  | handover => exact proper_onBay fun b => proper_handover b s
  | withdraw => exact proper_onBay fun b => proper_withdraw b s
  | release => exact proper_onBay fun b => proper_release b s
  | setLines p _ mask => exact proper_onBay fun b => proper_writeLines b s p mask true
  | clearLines p _ mask => exact proper_onBay fun b => proper_writeLines b s p mask false
  | readBay => exact proper_onBay fun b => proper_readBay b s
  | cellRun | cellStop => exact proper_accept _ (by simp [cellStateBytes])
  | clearTables => exact proper_clearTables s
  | setCell => exact proper_accept _ (by simp)
  | configureBay => exact proper_onBay fun b => proper_configureBay b s _
  | openPlan _ n => exact proper_onPlan (proper_openPlan s n)
  | writeStep _ n k r => exact proper_onPlan (proper_writeStep s n k r)
  | publishPlan _ n head flag => exact proper_onPlan (proper_publishPlan s n head flag)
  | discardPlan _ n => exact proper_onPlan (proper_discardPlan s n)
  | retirePlan _ n => exact proper_onPlan (proper_retirePlan s n)
  | readStep _ k => exact proper_readStep s k
  | readPlan _ n => exact proper_onPlan (proper_readPlan s n)
  | writeVariant _ code n cells => exact proper_writeVariant s code n cells
  | deleteVariant _ code => exact proper_deleteVariant s code
  | readVariant _ code start => exact proper_readVariant s code start
  | writeCell _ i v => exact proper_writeCell s i v
  | readCell _ i => exact proper_readCell s i
  | hold => exact proper_onBay fun b => proper_hold b s
  | resume => exact proper_onBay fun b => proper_resume b s
  | abort => exact proper_onBay fun b => proper_abort b s
  | takeManual => exact proper_onBay fun b => proper_takeManual b s
  | returnManual => exact proper_onBay fun b => proper_returnManual b s
  | jog _ _ speed => exact proper_onBay fun b => proper_jog b s speed
  | readLive => exact proper_onBay fun b => proper_readLive b s
  | peekReport _ offset length => exact proper_peekReport s offset length
  | takeReport _ n => exact proper_takeReport s n
  | queueStatus => exact proper_queueStatus s
  | _ => exact proper_silent s s

/-! ## Refusals (R9, R169) -/

/-- Settles O13. -/
theorem refusedCommandChangesNothing : Obligations.RefusedCommandChangesNothing := by
  refine ⟨fun i p s hPort hForeign => ?foreign, fun i p s t r hPort hExec hAnswer hStatus => ?refused⟩
  case foreign => rw [exec_command hPort, serve_foreign _ _ hForeign]
  case refused =>
    rw [exec_command hPort] at hExec
    cases hExec
    by_cases hCarried : p ∈ carriedOn i
    · have hProper := bodyOf_proper s i
      rw [serve_carried _ _ hCarried] at hAnswer ⊢
      rw [answered, mapPort_port_same] at hAnswer
      cases hAnswer
      rw [hProper.same hStatus]
      exact ⟨rfl, hProper.empty hStatus⟩
    · rw [serve_foreign _ _ hCarried] at hAnswer ⊢
      rw [answered, mapPort_port_same] at hAnswer
      cases hAnswer
      exact ⟨rfl, fun _ => rfl⟩

end Sys2Proof.Machine
end

section
/-! PROOF. Every step keeps what the ports hold within the length of a frame, and every serial number within its length (R10, R168; 09,
Byte layouts). -/

namespace Sys2Proof.Machine

/-! ## The exchange on the ports -/

theorem takeHead_raised (s : State) : Raised s (takeHead s) := by
  have hDropped : Raised s { s with reports := { s.reports with queue := s.reports.queue.drop 1 } } := .of_ports rfl
  simp only [takeHead]
  split
  · exact hDropped.trans (backlogCheck_raised _)
  · next w ws _ =>
    have hLeft : Raised s { s with reports := { s.reports with queue := s.reports.queue.drop 1, waiting := ws } } := .of_ports rfl
    exact hLeft.trans (commit_raised ..)

theorem Raised.exchange {s t : State} (h : Raised s t) (p : PortId) : (t.port p).exchange = (s.port p).exchange :=
  Port.exchange_of_unnoticed (h.same p)

theorem Effect.exchange {e : Prop} (he : e) {s t : State} (h : Effect e s t) (p : PortId) :
    (t.port p).exchange = (s.port p).exchange := by
  cases h with
  | reset h => exact absurd he h
  | cellState => exact (raise_raised ..).exchange p
  | take => exact (takeHead_raised s).exchange p
  | ports ps h => exact h he p
  | emptied n ps _ _ h => exact h he p
  | _ => rfl

/-- No command touches the exchange on any port before its answer. -/
theorem body_exchange (i : Instr) (s : State) (p : PortId) : ((bodyOf i s).state.port p).exchange = (s.port p).exchange :=
  (body_stirs (g := False) (d := False) (e := True) i s).keep (P := fun u => (u.port p).exchange = (s.port p).exchange)
    (fun _ _ h hu => (h.exchange trivial p).trans hu)
    (fun _ _ _ h hu => (Port.exchange_of_unnoticed (h.unnoticed p)).trans hu) rfl

/-! ## Frames that fit (09, Byte layouts) -/

/-- A port whose responses and whose frame on the wire fit the layout. -/
structure Port.Framed (p : Port) : Prop where
  preparing : ∀ r, p.preparing = some r → r.Fits
  response : ∀ r, p.response = some r → r.Fits
  shifted : p.shiftedOut.length ≤ 62

theorem Port.Framed.of_exchange {p q : Port} (h : p.Framed) (he : q.exchange = p.exchange) : q.Framed := by
  have hPreparing : q.preparing = p.preparing := show q.exchange.preparing = p.exchange.preparing by rw [he]
  have hResponse : q.response = p.response := show q.exchange.response = p.exchange.response by rw [he]
  have hShifted : q.shiftedOut = p.shiftedOut := show q.exchange.shiftedOut = p.exchange.shiftedOut by rw [he]
  exact ⟨by rw [hPreparing]; exact h.preparing, by rw [hResponse]; exact h.response, by rw [hShifted]; exact h.shifted⟩

theorem Port.framed_reset (mask : BitVec 10) : (Port.reset mask).Framed := ⟨nofun, nofun, Nat.zero_le _⟩

theorem length_withCheck (bytes : List Byte) : (withCheck bytes).length = bytes.length + 2 := by
  simp [withCheck]

theorem length_responseFrame (r : Response) (cut : Bool) : (responseFrame r cut).length = r.payload.length + 6 := by
  rw [responseFrame, length_withCheck]
  simp
  omega

theorem Response.Fits.frame {r : Response} (h : r.Fits) (cut : Bool) : (responseFrame r cut).length ≤ 62 := by
  rw [length_responseFrame]
  exact Nat.add_le_add_right h 6

theorem Port.bareResponse_fits (st : Status) (p : Port) : (p.bareResponse st).Fits := Nat.zero_le _

theorem Port.Framed.prepare {p : Port} (h : p.Framed) (i : Instr) (st : Status) {payload : List Byte} (hp : payload.length ≤ 56) :
    (p.prepare i st payload).Framed :=
  ⟨fun _ hr => by cases hr; exact hp, h.response, h.shifted⟩

theorem Port.Framed.startTransfer {p : Port} (h : p.Framed) : p.startTransfer.Framed := by
  unfold Port.startTransfer
  split
  · exact ⟨h.preparing, h.response, (p.bareResponse_fits _).frame _⟩
  · split
    · next r hr => exact ⟨h.preparing, nofun, (h.response r hr).frame _⟩
    · exact ⟨h.preparing, h.response, (p.bareResponse_fits _).frame _⟩
  · exact h

theorem takeFrame_fits {p : PortId} {bytes pl : List Byte} {n : Nat} {st : Status} {tag : Byte}
    (h : takeFrame p bytes n = .answer st tag pl) : pl.length ≤ 56 := by
  have hBad : ∀ k, badFrame k = .answer st tag pl → pl.length ≤ 56 := fun k hk => by cases hk; simp
  unfold takeFrame at h
  split at h
  · exact hBad _ h
  · split at h
    · dsimp only at h
      split at h
      · exact hBad _ h
      · split at h
        · unfold dispatch at h
          split at h
          · cases h; exact Nat.zero_le _
          · split at h
            · cases h; exact Nat.zero_le _
            · split at h
              · cases h; exact Nat.zero_le _
              · cases h
        · exact hBad _ h
    · exact hBad _ h

theorem Port.Framed.take {p : Port} (h : p.Framed) {taken : Taken} (bytes : List Byte) (n : Nat)
    (ht : ∀ st tag pl, taken = .answer st tag pl → pl.length ≤ 56) : (p.take taken bytes n).Framed := by
  unfold Port.take
  split
  · next st tag pl => exact ⟨fun _ hr => by cases hr; exact ht st tag pl rfl, h.response, h.shifted⟩
  · exact ⟨nofun, h.response, h.shifted⟩

theorem Port.Framed.endTransfer {p : Port} (h : p.Framed) (q : PortId) (bytes : List Byte) (n : Nat) :
    (p.endTransfer q bytes n).Framed := by
  unfold Port.endTransfer
  split
  · exact ⟨h.preparing, h.response, h.shifted⟩
  · next kind _ _ =>
    have hRead : Port.Framed { p with readOut := p.clockOut bytes.length, cutMark := p.cutMark || wasCut kind bytes n } :=
      ⟨h.preparing, h.response, h.shifted⟩
    exact hRead.take bytes n fun _ _ _ ht => takeFrame_fits ht
  · exact h
  · exact h

theorem Port.Framed.finishResponse {p : Port} (h : p.Framed) : p.finishResponse.Framed := by
  have hDone : ∀ r, p.preparing = some r → ∀ r', some r = some r' → r'.Fits := fun r hr r' e => by cases e; exact h.preparing r hr
  unfold Port.finishResponse
  split
  · exact h
  · next r hr =>
    dsimp only
    split
    · exact ⟨nofun, hDone r hr, h.shifted⟩
    · exact ⟨nofun, hDone r hr, h.shifted⟩
    · exact ⟨nofun, hDone r hr, h.shifted⟩
    · exact h

/-! ## Commands and events -/

theorem framesOk_iff {s : State} : FramesOk s ↔ (∀ p, (s.port p).Framed) ∧
    ∀ b bs, (s.record b).serial = some bs → 1 ≤ bs.length ∧ bs.length ≤ 20 :=
  ⟨fun ⟨h1, h2, h3, h4⟩ => ⟨fun p => ⟨h1 p, h2 p, h3 p⟩, h4⟩,
    fun ⟨h, h4⟩ => ⟨fun p => (h p).preparing, fun p => (h p).response, fun p => (h p).shifted, h4⟩⟩

theorem framed_mapPort {s : State} {p : PortId} {f : Port → Port} (h : ∀ q, (s.port q).Framed)
    (hf : ∀ x : Port, x.Framed → (f x).Framed) (q : PortId) : ((mapPort p f s).port q).Framed := by
  rw [mapPort_port]
  split
  · exact hf _ (h q)
  · exact h q

/-- At most the four bays wait. -/
theorem CustodyOk.waiting_le {s : State} (h : CustodyOk s) : s.reports.waiting.length ≤ 4 := by
  have hBays : s.reports.waiting.map (·.bay) ⊆ allBays := fun b _ => by cases b <;> decide
  have hLength := (h.once.subperm hBays).length_le
  rwa [List.length_map] at hLength

theorem serve_framed {p : PortId} {i : Instr} {s : State} (hs : FramesOk s) (hc : CustodyOk s) (q : PortId) :
    ((serve p i (bodyOf i) s).port q).Framed := by
  obtain ⟨hPorts, hSerial⟩ := framesOk_iff.mp hs
  by_cases h : p ∈ carriedOn i
  · rw [serve_carried _ _ h]
    refine framed_mapPort (fun r => (hPorts r).of_exchange (body_exchange i s r)) (fun x hx => hx.prepare _ _ ?_) q
    exact (bodyOf_proper s i).fits (fun b bs hb => (hSerial b bs hb).2) hc.waiting_le
  · rw [serve_foreign _ _ h]
    exact framed_mapPort hPorts (fun x hx => hx.prepare _ _ (Nat.zero_le _)) q

theorem Port.tick_exchange (p : Port) : p.tick.exchange = p.exchange := rfl

theorem tick_exchange (order : List BayId) (s : State) (p : PortId) : ((tick order s).port p).exchange = (s.port p).exchange := by
  have hBays : ∀ u : State, Stirs False False True u (driveTicks (tickOrder order) u) := driveTicks_stirs _
  have hKept : ∀ {u v : State}, Stirs False False True u v → (v.port p).exchange = (u.port p).exchange := fun {u v} h =>
    h.keep (P := fun w => (w.port p).exchange = (u.port p).exchange) (fun _ _ h hu => (h.exchange trivial p).trans hu)
      (fun _ _ _ h hu => (Port.exchange_of_unnoticed (h.unnoticed p)).trans hu) rfl
  rw [tick_eq, portTick_port, Port.tick_exchange]
  exact (hKept (sensorTick_stirs _)).trans ((hKept (hBays _)).trans rfl)

theorem framed_powerOn (s : State) (p : PortId) : ((powerOn s).port p).Framed := by
  rw [State.port, powerOn_ports]
  cases p <;> exact Port.framed_reset _

theorem exec_framed {i : Instr} {s t : State} (hs : FramesOk s) (hc : CustodyOk s) (h : exec i s = .next t) (q : PortId) :
    (t.port q).Framed := by
  have hPorts := (framesOk_iff.mp hs).1
  cases hPort : portOf i with
  | some p =>
    rw [exec_command hPort] at h
    cases h
    exact serve_framed hs hc q
  | none =>
    cases hBay : bayOf i with
    | some b =>
      refine (hPorts q).of_exchange ?_
      exact (event_moves (g := False) (d := False) hPort hBay h False.elim).keep
        (P := fun u => (u.port q).exchange = (s.port q).exchange)
        (fun _ _ hm hu => (Port.exchange_of_unnoticed (hm.unnoticed q)).trans hu) rfl
    | none =>
      cases i <;> first | exact absurd hPort (Option.some_ne_none _) | exact absurd hBay (Option.some_ne_none _) | skip
      case powerOnReset => cases h; exact framed_powerOn s q
      case millisecondTick order => cases h; exact (hPorts q).of_exchange (tick_exchange order s q)
      case reductionComplete =>
        cases h
        split
        · next j _ =>
          exact (hPorts q).of_exchange ((completeReduction_moves (g := False) (d := False) j s).keep
            (P := fun u => (u.port q).exchange = (s.port q).exchange)
            (fun _ _ hm hu => (Port.exchange_of_unnoticed (hm.unnoticed q)).trans hu) rfl)
        · exact hPorts q
      case quietTimerExpiry p =>
        cases h
        refine framed_mapPort hPorts (fun x hx => hx.of_exchange ?_) q
        unfold Port.quietExpired
        split <;> rfl
      case transferStart p => cases h; exact framed_mapPort hPorts (fun x hx => hx.startTransfer) q
      case requestTaken p bytes n => cases h; exact framed_mapPort hPorts (fun x hx => hx.endTransfer p bytes n) q
      case responseReady p =>
        cases h
        refine framed_mapPort (fun r => ?_) (fun x hx => hx.finishResponse) q
        unfold runRequest
        split
        · next cmd _ =>
          cases hCmd : portOf cmd with
          | some p' => rw [runCommand_command hCmd]; exact serve_framed hs hc r
          | none => rw [runCommand_event hCmd]; exact hPorts r
        · exact hPorts r

/-! ## Serial numbers (R10) -/

/-- Every recorded serial number has 1 to 20 bytes. -/
def SerialsOk (s : State) : Prop := ∀ b bs, (s.record b).serial = some bs → 1 ≤ bs.length ∧ bs.length ≤ 20

variable {b : BayId} {g d : Prop}

/-- A move leaves a bay's serial number, drops it, or records one that PRESENT has checked. -/
theorem Move.serial {s t : State} (h : Move b g d s t) : (t.record b).serial = (s.record b).serial ∨ (t.record b).serial = none ∨
    ∃ bs : List Byte, (t.record b).serial = some bs ∧ 1 ≤ bs.length ∧ bs.length ≤ 20 := by
  cases h with
  | still h =>
    obtain ⟨-, -, hSerial, -⟩ := BayRecord.of_core (frame_own h).2.1
    exact .inl hSerial
  | drive => exact .inl (by rw [mapDrive_recordOf])
  | config => exact .inl (by rw [config_record])
  | manual | unmanned | held | resume | release => exact .inl (by simp [enterHeld, beginResume])
  | load serial code _ _ _ hLength => exact .inr (.inr ⟨serial, by simp [loadAxle], hLength⟩)
  | clear => exact .inr (.inl (by simp [enterEmpty, BayRecord.cleared, BayRecord.reset]))
  | start v =>
    obtain ⟨l, hRecord⟩ := beginPlan_record_same b v s
    exact .inl (by rw [hRecord])
  | divert => exact .inl (by rw [divertBay_record_same])
  | post res =>
    unfold postResult
    split
    · exact .inl (by simp)
    · exact .inl rfl
  | closing =>
    obtain ⟨l, hRecord⟩ := beginClosing_record_same b s
    exact .inl (by rw [hRecord])
  | aborting cause =>
    obtain ⟨n, l, hRecord, -⟩ := beginAborting_record b cause s
    exact .inl (by rw [hRecord])
  | finish v => exact .inl (by rw [finishBay_record_same])

theorem SerialsOk.of_move {s t : State} (hs : SerialsOk s) (h : Move b g d s t) : SerialsOk t := by
  intro c bs hc
  by_cases hcb : c = b
  · subst hcb
    obtain hSame | hNone | ⟨bs', hNew, hLength⟩ := h.serial
    · exact hs c bs (hSame ▸ hc)
    · rw [hNone] at hc; cases hc
    · rw [hNew] at hc; cases hc; exact hLength
  · obtain ⟨-, -, hSerial, -⟩ := BayRecord.of_core (h.core hcb)
    exact hs c bs (hSerial ▸ hc)

theorem SerialsOk.of_effect {s t : State} (hs : SerialsOk s) (h : Effect False s t) : SerialsOk t := by
  cases h with
  | reset => intro c bs hc; rw [powerOn_record] at hc; cases hc
  | take =>
    intro c bs hc
    rw [takeHead_record] at hc
    split at hc <;> exact hs c bs hc
  | _ => exact hs

/-- Settles O6: the notices by the changes of the ports, the frames by what every command and event writes to them. -/
theorem portsKeepNoticesAndFrames : Obligations.PortsKeepNoticesAndFrames := by
  refine ⟨fun _ _ hs hStep => step_keep_of_change (fun _ _ h => h) (fun _ _ h hs => h.noticesOk hs) hs hStep,
    fun s t hCustody hFrames hStep => ?_⟩
  have hPending : ∀ (u : State) (cs : List Instr), CustodyOk u ∧ FramesOk u → CustodyOk { u with pending := cs } ∧
      FramesOk { u with pending := cs } := fun u cs ⟨⟨h1, h2, h3, h4⟩, ⟨k1, k2, k3, k4⟩⟩ => ⟨⟨h1, h2, h3, h4⟩, ⟨k1, k2, k3, k4⟩⟩
  unfold step at hStep
  split at hStep
  · cases hStep; exact hFrames
  · next c cs _ =>
    obtain ⟨hCustody', hFrames'⟩ := hPending s cs ⟨hCustody, hFrames⟩
    refine framesOk_iff.mpr ⟨exec_framed hFrames' hCustody' hStep, ?_⟩
    exact (exec_stirs_any hStep).keep (P := SerialsOk) (fun _ _ h hu => hu.of_effect h) (fun _ _ _ h hu => hu.of_move h) hFrames'.serial

end Sys2Proof.Machine
end

section
/-! PROOF. The publication walk (R35), the plans that stand published (R33, R36 to R39), and the commands PUBLISH PLAN and RETIRE PLAN. -/

namespace Sys2Proof.Machine

namespace PlanStore
variable {st st' : PlanStore} {n : Nat}

/-! ## Paths (R35) -/

theorem slotAt_lt {k : Nat} {o : OwnedStep} (h : st.slotAt k = some o) : k < 255 := by
  unfold slotAt at h
  by_contra hk
  rw [Vector.getElem?_eq_none (by exact Nat.le_of_not_lt hk)] at h
  cases h

/-- The results that the step in a slot may post (R35). -/
def resultsAt (st : PlanStore) (k : Nat) : Nat := ((st.slotAt k).map (·.record.kind)).elim 0 maxResults

theorem runs_append {path : List Nat} {k j last : Nat} {rec : StepRecord} (h : st.runs n path k j) (hj : st.slotAt j = some ⟨n, rec⟩)
    (hLast : rec.next = last) : st.runs n (path ++ [j]) k last := by
  induction path generalizing k with
  | nil => exact ⟨h.symm, rec, h ▸ hj, hLast⟩
  | cons x path ih =>
    obtain ⟨hx, r, hr, hRest⟩ := h
    exact ⟨hx, r, hr, ih hRest⟩

theorem runs_owned {path : List Nat} {k last : Nat} (h : st.runs n path k last) : ∀ x ∈ path, ∃ rec, st.slotAt x = some ⟨n, rec⟩ ∧
    (rec.next = last ∨ rec.next ∈ path) := by
  induction path generalizing k with
  | nil => exact fun x hx => absurd hx List.not_mem_nil
  | cons y path ih =>
    obtain ⟨rfl, rec, hRec, hRest⟩ := h
    intro x hx
    rcases List.mem_cons.mp hx with rfl | hx
    · refine ⟨rec, hRec, ?_⟩
      cases path with
      | nil => exact .inl hRest
      | cons z path => exact .inr (by rw [← hRest.1]; simp)
    · obtain ⟨r, hr, hNext⟩ := ih hRest x hx
      exact ⟨r, hr, hNext.imp id (List.mem_cons_of_mem _)⟩

theorem runs_length_le {path : List Nat} {k last : Nat} (h : st.runs n path k last) (hNodup : path.Nodup) : path.length ≤ 255 := by
  have hRange : path ⊆ List.range 255 := fun x hx => by
    obtain ⟨rec, hRec, -⟩ := runs_owned h x hx
    exact List.mem_range.mpr (slotAt_lt hRec)
  simpa using (hNodup.subperm hRange).length_le

/-- Where a path stops. -/
def Stops (st : PlanStore) (n last : Nat) (path : List Nat) : Prop :=
  last = 255 ∨ (∀ o, st.slotAt last = some o → o.plan ≠ n) ∨ last ∈ path

/-- A path that has not stopped goes on. -/
theorem runs_more {path : List Nat} {head k : Nat} (h : st.runs n path head k) (hNodup : path.Nodup) (hStop : ¬st.Stops n k path) :
    ∃ rec : StepRecord, st.runs n (path ++ [k]) head rec.next ∧ (path ++ [k]).Nodup := by
  simp only [Stops, not_or, not_forall, not_not] at hStop
  obtain ⟨-, ⟨⟨m, rec⟩, hSlot, rfl⟩, hNew⟩ := hStop
  refine ⟨rec, runs_append h hSlot rfl, List.nodup_append.mpr ⟨hNodup, List.nodup_singleton k, fun x hx y hy e => hNew ?_⟩⟩
  rw [List.mem_singleton] at hy
  rwa [← hy, ← e]

/-- Every path stops, as there are no more than 255 slots. -/
theorem exists_stop (room : Nat) {path : List Nat} {head k : Nat} (h : st.runs n path head k) (hNodup : path.Nodup)
    (hRoom : 255 ≤ path.length + room) : ∃ path' last, st.runs n path' head last ∧ path'.Nodup ∧ st.Stops n last path' := by
  induction room generalizing path k with
  | zero =>
    by_cases hStop : st.Stops n k path
    · exact ⟨path, k, h, hNodup, hStop⟩
    · obtain ⟨rec, hMore, hNodup'⟩ := runs_more h hNodup hStop
      have hLength := runs_length_le hMore hNodup'
      rw [List.length_append, List.length_singleton] at hLength
      omega
  | succ room ih =>
    by_cases hStop : st.Stops n k path
    · exact ⟨path, k, h, hNodup, hStop⟩
    · obtain ⟨rec, hMore, hNodup'⟩ := runs_more h hNodup hStop
      exact ih hMore hNodup' (by rw [List.length_append, List.length_singleton]; omega)

/-- The walk goes along a path. -/
theorem publishWalk_runs {path : List Nat} {k last fuel : Nat} {visited : List Nat} {total : Nat} (h : st.runs n path k last)
    (hNodup : path.Nodup) (hNew : ∀ x ∈ path, x ∉ visited) : st.publishWalk n (path.length + fuel) k visited total =
      st.publishWalk n fuel last (path.reverse ++ visited) (total + (path.map st.resultsAt).sum) := by
  induction path generalizing k visited total with
  | nil => cases h; simp
  | cons x path ih =>
    obtain ⟨rfl, rec, hRec, hRest⟩ := h
    obtain ⟨hx, hNodup'⟩ := List.nodup_cons.mp hNodup
    have hEnd : x ≠ Config.endLink := fun e => absurd (slotAt_lt hRec) (by rw [e]; decide)
    have hResults : st.resultsAt x = maxResults rec.kind := by simp [resultsAt, hRec]
    rw [List.length_cons, show path.length + 1 + fuel = (path.length + fuel) + 1 by omega, publishWalk, if_neg hEnd, hRec]
    simp only [ne_eq, not_true_eq_false, if_false, if_neg (hNew x List.mem_cons_self)]
    rw [ih hRest hNodup' fun y hy hy' => ?_]
    · simp [hResults, Nat.add_assoc]
    · rcases List.mem_cons.mp hy' with rfl | hy'
      · exact hx hy
      · exact hNew y (List.mem_cons_of_mem _ hy) hy'

theorem publishWalk_path {path : List Nat} {head last : Nat} (h : st.runs n path head last) (hNodup : path.Nodup) :
    st.publishWalk n 256 head [] 0 =
      st.publishWalk n (256 - path.length) last path.reverse (path.map st.resultsAt).sum := by
  have hLength := runs_length_le h hNodup
  have hWalk := publishWalk_runs (fuel := 256 - path.length) (visited := []) (total := 0) h hNodup fun _ _ => List.not_mem_nil
  rwa [show path.length + (256 - path.length) = 256 by omega, List.append_nil, Nat.zero_add] at hWalk

theorem publishWalk_end (fuel : Nat) (visited : List Nat) (total : Nat) :
    st.publishWalk n (fuel + 1) 255 visited total = (.atEnd, visited, total) := by
  rw [publishWalk]; exact if_pos rfl

theorem publishWalk_foreign {fuel k : Nat} {visited : List Nat} {total : Nat} (hk : k ≠ 255)
    (h : ∀ o, st.slotAt k = some o → o.plan ≠ n) : st.publishWalk n (fuel + 1) k visited total = (.foreign k, visited, total) := by
  rw [publishWalk, if_neg hk]
  split
  · rfl
  · next o ho => exact if_pos (h o ho)

theorem publishWalk_revisit {fuel k : Nat} {visited : List Nat} {total : Nat} {rec : StepRecord} (h : st.slotAt k = some ⟨n, rec⟩)
    (hk : k ∈ visited) : st.publishWalk n (fuel + 1) k visited total = (.revisit k, visited, total) := by
  have hEnd : k ≠ Config.endLink := fun e => absurd (slotAt_lt h) (by rw [e]; decide)
  rw [publishWalk, if_neg hEnd, h]
  simp [hk]

section
variable {path : List Nat} {head last : Nat} (h : st.runs n path head last) (hNodup : path.Nodup)
include h hNodup

/-- Fuel is left at the end of every path. -/
theorem fuel_left : 256 - path.length = (255 - path.length) + 1 := by
  have hLength := runs_length_le h hNodup
  omega

theorem head_ne_end (hPath : path ≠ []) : head ≠ Config.endLink := by
  cases path with
  | nil => exact absurd rfl hPath
  | cons x path =>
    obtain ⟨rfl, rec, hRec, -⟩ := h
    intro e
    exact absurd (slotAt_lt hRec) (by rw [e]; decide)

theorem judgeChain_foreign (hLast : last ≠ 255) (hForeign : ∀ o, st.slotAt last = some o → o.plan ≠ n) :
    st.judgeChain n head = .error (.foreignSlot last) := by
  have hHead : head ≠ Config.endLink := by
    cases path with
    | nil => cases h; exact hLast
    | cons x path => exact head_ne_end h hNodup (List.cons_ne_nil _ _)
  rw [judgeChain, if_neg hHead, publishWalk_path h hNodup, fuel_left h hNodup, publishWalk_foreign hLast hForeign]

theorem judgeChain_cycle (hLast : last ∈ path) : st.judgeChain n head = .error (.cycle last) := by
  obtain ⟨rec, hRec, -⟩ := runs_owned h last hLast
  rw [judgeChain, if_neg (head_ne_end h hNodup (List.ne_nil_of_mem hLast)), publishWalk_path h hNodup, fuel_left h hNodup,
    publishWalk_revisit hRec (List.mem_reverse.mpr hLast)]

theorem judgeChain_end (hLast : last = 255) (hPath : path ≠ []) : st.judgeChain n head =
    if 64 < path.length then .error .chainTooLong
    else if 32 < (path.map st.resultsAt).sum then .error .tooManyResults
    else .ok (path.reverse, (path.map st.resultsAt).sum) := by
  subst hLast
  rw [judgeChain, if_neg (head_ne_end h hNodup hPath), publishWalk_path h hNodup, fuel_left h hNodup, publishWalk_end]
  simp only [List.length_reverse]

end

theorem judgeChain_empty : st.judgeChain n 255 = .error .emptyPlan := if_pos rfl

/-- An accepted chain is a path to END of at most 64 slots and 32 results (R35). -/
theorem judgeChain_ok_iff {head total : Nat} {visited : List Nat} : st.judgeChain n head = .ok (visited, total) ↔
    ∃ path, st.runs n path head 255 ∧ path.Nodup ∧ path ≠ [] ∧ path.length ≤ 64 ∧ (path.map st.resultsAt).sum ≤ 32 ∧
      visited = path.reverse ∧ total = (path.map st.resultsAt).sum := by
  constructor
  · intro hOk
    obtain ⟨path, last, hRuns, hNodup, hStop⟩ :=
      exists_stop (st := st) (n := n) 255 (path := []) (head := head) (k := head) rfl List.nodup_nil (by simp)
    by_cases hLast : last = 255
    · by_cases hPath : path = []
      · subst hPath hLast
        cases hRuns
        rw [judgeChain_empty] at hOk; cases hOk
      · rw [judgeChain_end hRuns hNodup hLast hPath] at hOk
        split at hOk
        · cases hOk
        · split at hOk
          · cases hOk
          · cases hOk
            exact ⟨path, hLast ▸ hRuns, hNodup, hPath, by omega, by omega, rfl, rfl⟩
    · rcases hStop with hEnd | hForeign | hCycle
      · exact absurd hEnd hLast
      · rw [judgeChain_foreign hRuns hNodup hLast hForeign] at hOk; cases hOk
      · rw [judgeChain_cycle hRuns hNodup hCycle] at hOk; cases hOk
  · rintro ⟨path, hRuns, hNodup, hPath, hLength, hTotal, rfl, rfl⟩
    rw [judgeChain_end hRuns hNodup rfl hPath, if_neg (by omega), if_neg (by omega)]

/-- A path stands as long as its slots do. -/
theorem runs_congr {path : List Nat} {k last : Nat} (h : st.runs n path k last)
    (hSlots : ∀ x ∈ path, ∀ rec, st.slotAt x = some ⟨n, rec⟩ → st'.slotAt x = some ⟨n, rec⟩) : st'.runs n path k last := by
  induction path generalizing k with
  | nil => exact h
  | cons x path ih =>
    obtain ⟨hx, rec, hRec, hRest⟩ := h
    exact ⟨hx, rec, hx ▸ hSlots x List.mem_cons_self rec (hx ▸ hRec), ih hRest fun y hy => hSlots y (List.mem_cons_of_mem _ hy)⟩

/-- An accepted chain is accepted as long as the slots on it stay. -/
theorem judgeChain_congr {head total : Nat} {visited : List Nat} (h : st.judgeChain n head = .ok (visited, total))
    (hSlots : ∀ x ∈ visited, ∀ rec, st.slotAt x = some ⟨n, rec⟩ → st'.slotAt x = some ⟨n, rec⟩) :
    st'.judgeChain n head = .ok (visited, total) := by
  obtain ⟨path, hRuns, hNodup, hPath, hLength, hTotal, rfl, rfl⟩ := judgeChain_ok_iff.mp h
  have hSlots' : ∀ x ∈ path, ∀ rec, st.slotAt x = some ⟨n, rec⟩ → st'.slotAt x = some ⟨n, rec⟩ := fun x hx =>
    hSlots x (List.mem_reverse.mpr hx)
  have hResults : path.map st'.resultsAt = path.map st.resultsAt := List.map_congr_left fun x hx => by
    obtain ⟨rec, hRec, -⟩ := runs_owned hRuns x hx
    rw [resultsAt, resultsAt, hRec, hSlots' x hx rec hRec]
  exact judgeChain_ok_iff.mpr ⟨path, runs_congr hRuns hSlots', hNodup, hPath, hLength, by rwa [hResults], rfl, by rw [hResults]⟩

end PlanStore

end Sys2Proof.Machine
end

section
/-! PROOF. PUBLISH PLAN and RETIRE PLAN (R35, R36, R38), and what every step keeps of the published plans (R29, R31, R33, R39). -/

namespace Sys2Proof.Machine

/-! ## A plan published (R36) -/

namespace PlanStore

theorem slotAt_publish (st : PlanStore) (n head : Nat) (flag : Bool) (visited : List Nat) (total k : Nat) :
    (st.publish n head flag visited total).slotAt k = (st.slotAt k).filter fun o => o.plan != n || decide (k ∈ visited) := by
  rw [publish, slotAt_setEntry, slotAt_freeSlots]

theorem slotAt_publish_visited (st : PlanStore) {n k : Nat} (head : Nat) (flag : Bool) {visited : List Nat} (total : Nat)
    (hk : k ∈ visited) : (st.publish n head flag visited total).slotAt k = st.slotAt k := by
  rw [slotAt_publish]
  cases st.slotAt k <;> simp [hk]

theorem slotAt_publish_other (st : PlanStore) {n k : Nat} {o : OwnedStep} (head : Nat) (flag : Bool) (visited : List Nat) (total : Nat)
    (h : st.slotAt k = some o) (ho : o.plan ≠ n) : (st.publish n head flag visited total).slotAt k = some o := by
  rw [slotAt_publish, h]
  simp [Option.filter, ho]

theorem slotAt_publish_freed (st : PlanStore) {n k : Nat} {o : OwnedStep} (head : Nat) (flag : Bool) {visited : List Nat} (total : Nat)
    (h : st.slotAt k = some o) (ho : o.plan = n) (hk : k ∉ visited) : (st.publish n head flag visited total).slotAt k = none := by
  rw [slotAt_publish, h]
  simp [ho, hk]

/-- What a slot holds after a publication it held before. -/
theorem slotAt_of_publish {st : PlanStore} {n head k : Nat} {flag : Bool} {visited : List Nat} {total : Nat} {o : OwnedStep}
    (h : (st.publish n head flag visited total).slotAt k = some o) : st.slotAt k = some o := by
  rw [slotAt_publish, Option.filter_eq_some_iff] at h
  exact h.1

theorem entry_publish_same (st : PlanStore) {n : Nat} (head : Nat) (flag : Bool) (visited : List Nat) (total : Nat)
    (hn : isPlanNumber n = true) : (st.publish n head flag visited total).entry n =
      ⟨.ready, some head, nextVersion (st.entry n).version, flag, 0, some visited.length, some total⟩ :=
  entry_setEntry_same _ _ hn

theorem entry_publish_other (st : PlanStore) {n m : Nat} (head : Nat) (flag : Bool) (visited : List Nat) (total : Nat) (h : m ≠ n) :
    (st.publish n head flag visited total).entry m = st.entry m := by
  rw [publish, entry_setEntry_other _ _ h, entry_freeSlots]

theorem freeSlots_tables (st : PlanStore) (n : Nat) (keep : List Nat) :
    (st.freeSlots n keep).variants = st.variants ∧ (st.freeSlots n keep).common = st.common := by
  simp [freeSlots]

theorem publish_tables (st : PlanStore) (n head : Nat) (flag : Bool) (visited : List Nat) (total : Nat) :
    (st.publish n head flag visited total).variants = st.variants ∧ (st.publish n head flag visited total).common = st.common := by
  rw [publish, setEntry_variants, setEntry_common]
  exact freeSlots_tables ..

theorem nextVersion_eq (v : Nat) : nextVersion v = if v < 65535 then v + 1 else 1 := by
  by_cases h : v < 65535
  · exact (if_neg (Nat.not_le.mpr h)).trans (if_pos h).symm
  · exact (if_pos (Nat.not_lt.mp h)).trans (if_neg h).symm

theorem named_iff (st : PlanStore) (n : Nat) : st.named n = true ↔ ∃ v ∈ st.variants, v.plan = n := by
  simp [named]

end PlanStore

/-! ## PUBLISH PLAN and RETIRE PLAN (R35, R36, R38) -/

/-- Settles O56: the paths of the links decide a publication, and both commands follow it and the references. -/
theorem publishAndRetireAct : Obligations.PublishAndRetireAct := by
  refine ⟨fun n head st => ⟨?path, fun path last hRuns hNodup => ?judge⟩, fun n s => ⟨fun head flag => ?publish, ?retire⟩⟩
  case path =>
    exact PlanStore.exists_stop (st := st) 255 (path := []) (head := head) (k := head) rfl List.nodup_nil (by simp)
  case judge =>
    have hResults : (path.map st.resultsAt).sum = (path.map fun k => match (st.slotAt k).map (·.record.kind) with
        | some .dwell => 2
        | some .listen => 1
        | some .leak => 1
        | some .ramp => 0
        | none => 0).sum := by
      congr 1
      refine List.map_congr_left fun k _ => ?_
      rw [PlanStore.resultsAt]
      cases hKind : (st.slotAt k).map (·.record.kind) with
      | none => rfl
      | some kind => cases kind <;> rfl
    intro total
    refine ⟨fun hLast hForeign => PlanStore.judgeChain_foreign hRuns hNodup hLast hForeign,
      fun hLast => PlanStore.judgeChain_cycle hRuns hNodup hLast, fun hLast hPath => ?_, fun hLast hPath => ?_⟩
    · subst hLast hPath
      cases hRuns
      exact PlanStore.judgeChain_empty
    · rw [PlanStore.judgeChain_end hRuns hNodup hLast hPath, hResults]
      exact ⟨fun h => if_pos h, fun h h' => (if_neg (Nat.not_lt.mpr h)).trans (if_pos h'),
        fun h h' => (if_neg (Nat.not_lt.mpr h)).trans (if_neg (Nat.not_lt.mpr h'))⟩
  case publish =>
    intro i
    have published : ∀ {st payload t}, isPlanNumber n = true → runPublishPlan n head flag s = ⟨st, payload, t⟩ →
        exec i s = .next (answered .cell i st payload t) := exec_onPlan rfl (List.mem_singleton.mpr rfl) rfl
    refine ⟨fun h => ?_, fun hn hHead h => published hn ((if_neg (by omega)).trans (if_pos h)), fun hn hHead h => ?_⟩
    · by_cases hn : isPlanNumber n = true
      · obtain h | h := h
        · rw [hn] at h; cases h
        · exact published hn (if_pos h)
      · exact exec_offPlan rfl (List.mem_singleton.mpr rfl) rfl (Bool.eq_false_iff.mpr hn)
    · have hRun : runPublishPlan n head flag s = _ := (if_neg (by omega)).trans (if_neg (not_not.mpr h))
      have failed : ∀ e, s.store.judgeChain n head = .error e → exec i s = .next (answered .cell i .planInvalid (publishErrorBytes e) s) :=
        fun e he => published hn (hRun.trans (by rw [he]))
      refine ⟨fun he => failed .emptyPlan (he ▸ PlanStore.judgeChain_empty), fun k he => ⟨?foreign, failed _ he⟩, fun k he => failed _ he,
        fun he => failed _ he, fun he => failed _ he, fun visited total hOk =>
          ⟨s.store.publish n head flag visited total, nextVersion (s.store.entry n).version, PlanStore.nextVersion_eq _, ?accepted,
            PlanStore.entry_publish_same _ _ _ _ _ hn, fun m hm => PlanStore.entry_publish_other _ _ _ _ _ hm, ?chain⟩⟩
      case foreign =>
        obtain ⟨path, last, hRuns, hNodup, hStop⟩ :=
          PlanStore.exists_stop (st := s.store) (n := n) 255 (path := []) (head := head) (k := head) rfl List.nodup_nil (by simp)
        by_cases hLast : last = 255
        · by_cases hPath : path = []
          · subst hPath hLast
            cases hRuns
            rw [PlanStore.judgeChain_empty] at he; cases he
          · rw [PlanStore.judgeChain_end hRuns hNodup hLast hPath] at he
            split at he
            · cases he
            · split at he <;> cases he
        · rcases hStop with hEnd | hForeign | hCycle
          · exact absurd hEnd hLast
          · rw [PlanStore.judgeChain_foreign hRuns hNodup hLast hForeign] at he
            cases he
            exact hForeign
          · rw [PlanStore.judgeChain_cycle hRuns hNodup hCycle] at he; cases he
      case accepted =>
        refine published hn (hRun.trans ?_)
        rw [hOk]
        simp only [PlanStore.entry_publish_same _ _ _ _ _ hn]
        rfl
      case chain =>
        obtain ⟨hVariants, hCommon⟩ := PlanStore.publish_tables s.store n head flag visited total
        obtain ⟨path, hRuns, hNodup, hPath, hLength, hTotal, rfl, rfl⟩ := PlanStore.judgeChain_ok_iff.mp hOk
        refine ⟨?_, List.nodup_reverse.mpr hNodup, by rwa [List.length_reverse], hTotal, fun k hk => ?_,
          fun k o hk ho hNot => PlanStore.slotAt_publish_freed _ _ _ _ hk ho hNot,
          fun k o hk ho => PlanStore.slotAt_publish_other _ _ _ _ _ hk ho, hVariants, hCommon⟩
        · cases path with
          | nil => exact absurd rfl hPath
          | cons x path => rw [← hRuns.1]; simp
        · obtain ⟨rec, hRec, hNext⟩ := PlanStore.runs_owned hRuns k (List.mem_reverse.mp hk)
          exact ⟨rec, (PlanStore.slotAt_publish_visited _ _ _ _ hk).trans hRec, hRec, hNext.imp id List.mem_reverse.mpr⟩
  case retire =>
    intro i
    have retired : ∀ {st payload t}, isPlanNumber n = true → runRetirePlan n s = ⟨st, payload, t⟩ →
        exec i s = .next (answered .cell i st payload t) := exec_onPlan rfl (List.mem_singleton.mpr rfl) rfl
    refine ⟨exec_offPlan rfl (List.mem_singleton.mpr rfl) rfl, fun hn h => retired hn (if_pos h), fun hn h =>
      ⟨fun v hv hPlan => retired hn ((if_neg (not_not.mpr h)).trans (if_pos ((PlanStore.named_iff _ _).mpr ⟨v, hv, hPlan⟩))),
        fun hFree => ?_⟩⟩
    have hNamed : ¬s.store.named n = true := fun e => by
      obtain ⟨v, hv, hPlan⟩ := (PlanStore.named_iff _ _).mp e
      exact hFree v hv hPlan
    have hRun : runRetirePlan n s = _ := (if_neg (not_not.mpr h)).trans (if_neg hNamed)
    by_cases hCount : (s.store.entry n).refCount = 0
    · refine ⟨s.store.emptyPlan n, fun _ => ⟨retired hn (hRun.trans (if_pos hCount)), PlanStore.entry_emptyPlan_same _ hn, fun k o hk => ?_⟩,
        fun e => absurd hCount e, fun m hm => PlanStore.entry_emptyPlan_other _ hm, PlanStore.emptyPlan_variants ..,
        PlanStore.emptyPlan_common ..⟩
      rw [PlanStore.slotAt_emptyPlan, hk]
      by_cases ho : o.plan = n <;> simp [Option.filter, ho]
    · exact ⟨s.store.setEntry n { s.store.entry n with state := .retiring }, fun e => absurd e hCount,
        fun _ => ⟨retired hn (hRun.trans (if_neg hCount)), PlanStore.entry_setEntry_same _ _ hn, PlanStore.setEntry_slots ..⟩,
        fun m hm => PlanStore.entry_setEntry_other _ _ hm, PlanStore.setEntry_variants .., PlanStore.setEntry_common ..⟩

end Sys2Proof.Machine
end

section
/-! PROOF. Every step keeps the published chains valid (R29, R33, R35, R36), and no command writes a step of a published plan (R31). -/

namespace Sys2Proof.Machine

/-! ## Stores with the same plans -/

/-- An entry's standing: all but its version and its reference count. -/
def PlanEntry.standing (e : PlanEntry) : PlanEntry := { e with version := 0, refCount := 0 }

theorem PlanEntry.of_standing {e f : PlanEntry} (h : e.standing = f.standing) : e.state = f.state ∧ e.head = f.head ∧
    e.endOnFail = f.endOnFail ∧ e.stepCount = f.stepCount ∧ e.resultBound = f.resultBound := by
  simp only [standing, PlanEntry.mk.injEq, true_and] at h
  exact h

theorem PlanStore.chainOk.congr {st st' : PlanStore} {n : Nat} (h : st.chainOk n) (hHead : (st'.entry n).head = (st.entry n).head)
    (hCount : (st'.entry n).stepCount = (st.entry n).stepCount) (hBound : (st'.entry n).resultBound = (st.entry n).resultBound)
    (hSlots : ∀ k rec, st.slotAt k = some ⟨n, rec⟩ → st'.slotAt k = some ⟨n, rec⟩) : st'.chainOk n := by
  obtain ⟨head, visited, total, h1, h2, h3, h4⟩ := h
  exact ⟨head, visited, total, hHead.trans h1, PlanStore.judgeChain_congr h2 fun x _ rec => hSlots x rec, hCount.trans h3,
    hBound.trans h4⟩

/-- The plans of two states agree in slots and standing. -/
theorem PlansOk.of_same {s t : State} (hs : PlansOk s) (hSlots : ∀ k, t.store.slotAt k = s.store.slotAt k)
    (hEntries : ∀ n, (t.store.entry n).standing = (s.store.entry n).standing) : PlansOk t where
  owned k o h := by
    obtain ⟨hn, hState⟩ := hs.owned k o (hSlots k ▸ h)
    obtain ⟨hSame, -⟩ := PlanEntry.of_standing (hEntries o.plan)
    exact ⟨hn, hSame ▸ hState⟩
  chain n hn h := by
    obtain ⟨hState, hHead, -, hCount, hBound⟩ := PlanEntry.of_standing (hEntries n)
    exact (hs.chain n hn (hState ▸ h)).congr hHead hCount hBound fun k rec hk => (hSlots k).trans hk
  absent n hn h := by
    obtain ⟨hState, hHead, hFlag, hCount, hBound⟩ := PlanEntry.of_standing (hEntries n)
    rw [hHead, hFlag, hCount, hBound]
    exact hs.absent n hn (hState ▸ h)

theorem PlansOk.of_store {s t : State} (hs : PlansOk s) (hSlots : t.store.slots = s.store.slots)
    (hDirectory : t.store.directory = s.store.directory) : PlansOk t :=
  hs.of_same (fun k => by rw [PlanStore.slotAt, hSlots]; rfl) fun n => by rw [PlanStore.entry, hDirectory]; rfl

/-- One plan changes between two stores; slots of the other plans stay. -/
structure PlanChanged (n : Nat) (st st' : PlanStore) : Prop where
  kept : ∀ k o, o.plan ≠ n → st.slotAt k = some o → st'.slotAt k = some o
  origin : ∀ k o, o.plan ≠ n → st'.slotAt k = some o → st.slotAt k = some o
  others : ∀ m, m ≠ n → st'.entry m = st.entry m

theorem PlansOk.of_changed {s t : State} {n : Nat} (hs : PlansOk s) (h : PlanChanged n s.store t.store)
    (hOwned : ∀ k rec, t.store.slotAt k = some ⟨n, rec⟩ → isPlanNumber n = true ∧ (t.store.entry n).state ≠ .empty)
    (hChain : (t.store.entry n).state = .ready ∨ (t.store.entry n).state = .retiring → t.store.chainOk n)
    (hAbsent : (t.store.entry n).state = .empty ∨ (t.store.entry n).state = .loading → (t.store.entry n).head = none ∧
      (t.store.entry n).stepCount = none ∧ (t.store.entry n).resultBound = none ∧ (t.store.entry n).endOnFail = false) : PlansOk t where
  owned k o hk := by
    by_cases ho : o.plan = n
    · subst ho; exact hOwned k o.record hk
    · rw [h.others _ ho]; exact hs.owned k o (h.origin k o ho hk)
  chain m hm hState := by
    by_cases hmn : m = n
    · subst hmn; exact hChain hState
    · rw [h.others m hmn] at hState
      have hEntry := h.others m hmn
      exact (hs.chain m hm hState).congr (by rw [hEntry]) (by rw [hEntry]) (by rw [hEntry]) fun k rec hk => h.kept k _ hmn hk
  absent m hm hState := by
    by_cases hmn : m = n
    · subst hmn; exact hAbsent hState
    · rw [h.others m hmn] at hState ⊢
      exact hs.absent m hm hState

/-! ## The changes of the Plan Store -/

/-- A plan emptied keeps the slots and entries of the others. -/
theorem planChanged_emptyPlan (st : PlanStore) (n : Nat) : PlanChanged n st (st.emptyPlan n) where
  kept _ _ ho hk := by rw [PlanStore.slotAt_emptyPlan, hk]; simp [Option.filter, ho]
  origin _ _ _ hk := by rw [PlanStore.slotAt_emptyPlan, Option.filter_eq_some_iff] at hk; exact hk.1
  others _ hm := PlanStore.entry_emptyPlan_other _ hm

theorem planChanged_setEntry (st : PlanStore) (n : Nat) (e : PlanEntry) : PlanChanged n st (st.setEntry n e) where
  kept _ _ _ hk := (PlanStore.slotAt_setEntry ..).trans hk
  origin _ _ _ hk := (PlanStore.slotAt_setEntry ..).symm.trans hk
  others _ hm := PlanStore.entry_setEntry_other _ _ hm

theorem not_owned_emptyPlan (st : PlanStore) {n k : Nat} {rec : StepRecord} : (st.emptyPlan n).slotAt k ≠ some ⟨n, rec⟩ := by
  rw [PlanStore.slotAt_emptyPlan, ne_eq, Option.filter_eq_some_iff]
  simp

theorem PlansOk.emptied {s t : State} {n : Nat} (hs : PlansOk s) (hn : isPlanNumber n = true) (ht : t.store = s.store.emptyPlan n) :
    PlansOk t := by
  have hEntry : t.store.entry n = (s.store.entry n).emptied := by rw [ht, PlanStore.entry_emptyPlan_same _ hn]
  refine hs.of_changed (n := n) (by rw [ht]; exact planChanged_emptyPlan ..) (fun k rec hk => ?_) (fun h => ?_) fun _ => ?_
  · rw [ht] at hk; exact absurd hk (not_owned_emptyPlan _)
  · rw [hEntry] at h; obtain h | h := h <;> cases h
  · rw [hEntry]; exact ⟨rfl, rfl, rfl, rfl⟩

theorem PlansOk.unreferenced {s t : State} {n : Nat} (hs : PlansOk s) (ht : t.store = s.store.unreferenced n) : PlansOk t := by
  by_cases hn : isPlanNumber n = true
  · by_cases hLast : (s.store.entry n).state = .retiring ∧ (s.store.entry n).refCount ≤ 1
    · have hReturned : PlansOk { s with store := s.store.setEntry n { s.store.entry n with
          refCount := (s.store.entry n).refCount - 1 } } := by
        refine hs.of_same (fun k => PlanStore.slotAt_setEntry ..) fun m => ?_
        by_cases hm : m = n
        · subst hm; exact (congrArg PlanEntry.standing (PlanStore.entry_setEntry_same _ _ hn)).trans rfl
        · exact congrArg PlanEntry.standing (PlanStore.entry_setEntry_other _ _ hm)
      exact hReturned.emptied hn (ht.trans (if_pos hLast))
    · refine hs.of_same (fun k => ?_) fun m => ?_
      · rw [ht, PlanStore.slotAt_unreferenced, if_neg hLast]
      · rw [ht]
        by_cases hm : m = n
        · subst hm; rw [PlanStore.entry_unreferenced_same _ hn, if_neg hLast]; rfl
        · rw [PlanStore.entry_unreferenced_other _ hm]
  · have hEntry : s.store.entry n = PlanEntry.reset := if_neg hn
    have hStore : t.store = s.store := by
      rw [ht, PlanStore.unreferenced, if_neg (by rw [hEntry]; exact fun h => nomatch h.1), PlanStore.setEntry, if_neg hn]
    exact hs.of_store (by rw [hStore]) (by rw [hStore])

theorem PlansOk.referenced {s t : State} {n : Nat} (hs : PlansOk s)
    (ht : t.store = s.store.setEntry n { s.store.entry n with refCount := (s.store.entry n).refCount + 1 }) : PlansOk t := by
  refine hs.of_same (fun k => by rw [ht]; exact PlanStore.slotAt_setEntry ..) fun m => ?_
  rw [ht]
  by_cases hm : m = n
  · subst hm
    by_cases hn : isPlanNumber m = true
    · exact (congrArg PlanEntry.standing (PlanStore.entry_setEntry_same _ _ hn)).trans rfl
    · rw [PlanStore.setEntry, if_neg hn]
  · exact congrArg PlanEntry.standing (PlanStore.entry_setEntry_other _ _ hm)

/-- A plan with no slots and no standing. -/
theorem plansOk_blank {s : State} (hSlots : ∀ k, s.store.slotAt k = none)
    (hEntries : ∀ n, isPlanNumber n = true → (s.store.entry n).standing = PlanEntry.reset) : PlansOk s where
  owned k o h := by rw [hSlots] at h; cases h
  chain n hn h := by
    obtain ⟨hState, -⟩ := PlanEntry.of_standing (f := PlanEntry.reset) (hEntries n hn)
    rw [hState] at h; obtain h | h := h <;> cases h
  absent n hn _ := by
    obtain ⟨-, hHead, hFlag, hCount, hBound⟩ := PlanEntry.of_standing (f := PlanEntry.reset) (hEntries n hn)
    exact ⟨hHead, hCount, hBound, hFlag⟩

theorem entry_reset (n : Nat) : PlanStore.reset.entry n = PlanEntry.reset := by
  unfold PlanStore.entry PlanStore.reset
  split
  · by_cases h : n - 1 < 16
    · simp [h]
    · simp [h]
  · rfl

theorem PlansOk.of_effect {s t : State} (hs : PlansOk s) (h : Effect False s t) : PlansOk t := by
  cases h with
  | same => exact hs
  | clock | cellState | settings | variant | unvariant | ports => exact hs.of_store rfl rfl
  | take => exact hs.of_store (by rw [takeHead_store]) (by rw [takeHead_store])
  | common i v => exact hs.of_store rfl rfl
  | reset => exact plansOk_blank (by rw [powerOn_store]; exact slotAt_reset) fun n _ => by rw [powerOn_store, entry_reset]; rfl
  | cleared => exact plansOk_blank slotAt_reset fun n hn => by rw [entry_cleared _ hn]; rfl
  | opened n hn hEmpty =>
    have hEntry := PlanStore.entry_setEntry_same s.store { s.store.entry n with state := .loading } hn
    refine hs.of_changed (planChanged_setEntry ..) (fun k rec hk => ⟨hn, ?_⟩) (fun h => ?_) fun _ => ?_
    · rw [withStore, hEntry]; nofun
    · rw [withStore, hEntry] at h; obtain h | h := h <;> cases h
    · rw [withStore, hEntry]; exact hs.absent n hn (.inl hEmpty)
  | written n k r hn hk hLoading hOwn =>
    have hSlot := fun j => PlanStore.slotAt_setSlot s.store (some ⟨n, r⟩) (k := k) (by omega) j
    refine hs.of_changed (n := n) ⟨fun j o ho hj => ?_, fun j o ho hj => ?_, fun m _ => rfl⟩ (fun j rec hj => ⟨hn, ?_⟩)
      (fun h => ?_) fun _ => hs.absent n hn (.inr hLoading)
    · refine (hSlot j).trans ((if_neg fun e => ho ?_).trans hj)
      subst e; exact hOwn o hj
    · by_cases hjk : j = k
      · rw [withStore, hSlot, if_pos hjk] at hj; cases hj; exact absurd rfl ho
      · rwa [withStore, hSlot, if_neg hjk] at hj
    · show (s.store.entry n).state ≠ .empty
      rw [hLoading]; nofun
    · have h' : (s.store.entry n).state = .ready ∨ (s.store.entry n).state = .retiring := h
      rw [hLoading] at h'; obtain h' | h' := h' <;> cases h'
  | published n head flag visited total hn hLoading hChain =>
    have hEntry := PlanStore.entry_publish_same s.store head flag visited total hn
    refine hs.of_changed (n := n) ⟨fun k o ho hk => PlanStore.slotAt_publish_other _ _ _ _ _ hk ho,
      fun k o _ hk => PlanStore.slotAt_of_publish hk, fun m hm => PlanStore.entry_publish_other _ _ _ _ _ hm⟩
      (fun k rec hk => ⟨hn, ?_⟩) (fun _ => ?_) fun h => ?_
    · rw [withStore, hEntry]; nofun
    · refine ⟨head, visited, total, by rw [withStore, hEntry], ?_, by rw [withStore, hEntry], by rw [withStore, hEntry]⟩
      exact PlanStore.judgeChain_congr hChain fun x hx rec h => (PlanStore.slotAt_publish_visited _ _ _ _ hx).trans h
    · rw [withStore, hEntry] at h; obtain h | h := h <;> cases h
  | emptied n ps hn => exact hs.emptied hn rfl
  | retired n hn hReady =>
    have hEntry := PlanStore.entry_setEntry_same s.store { s.store.entry n with state := .retiring } hn
    refine hs.of_changed (planChanged_setEntry ..) (fun k rec hk => ⟨hn, ?_⟩) (fun _ => ?_) fun h => ?_
    · rw [withStore, hEntry]; nofun
    · exact (hs.chain n hn (.inl hReady)).congr (by rw [withStore, hEntry]) (by rw [withStore, hEntry]) (by rw [withStore, hEntry])
        fun k rec hk => (PlanStore.slotAt_setEntry ..).trans hk
    · rw [withStore, hEntry] at h; obtain h | h := h <;> cases h

/-! ## Moves -/

theorem beginPlan_store (b : BayId) (v : VariantEntry) (s : State) : (beginPlan b v s).store =
    s.store.setEntry v.plan { s.store.entry v.plan with refCount := (s.store.entry v.plan).refCount + 1 } := by
  unfold beginPlan
  obtain ⟨-, hStore, -⟩ := State.rest_eq_iff.mp (refreshLines_rest b (mapDrive b (fun d => { d with
    enable := true, target := 0, x := 0 }) (mapSensor b (fun l => { l with lossWatch := some LossWatch.started })
    (setBayState b .running (setOwner b .sequencer (mapRecord b (fun r => { r with
      planNumber := some v.plan, planVersion := some (s.store.entry v.plan).version, slot := (s.store.entry v.plan).head })
      (takeReference v.plan s)))))))
  exact hStore

theorem beginClosing_store (b : BayId) (s : State) : (beginClosing b s).store = s.store := by
  unfold beginClosing
  obtain ⟨-, hStore, -⟩ := State.rest_eq_iff.mp (refreshLines_rest b (startWindDown b (setBayState b .closing
    (mapRecord b (fun r => { r with
      phase := .none, holdRequest := false, holdPoint := none, latched := none, startTemperature := none }) s))))
  exact hStore

variable {b : BayId} {g d : Prop}

/-- The plans between two states: as they were, one referenced, or one given up by its bay. -/
inductive PlanMoved (s : State) : State → Prop where
  | same {t : State} (hSlots : t.store.slots = s.store.slots) (hDirectory : t.store.directory = s.store.directory) : PlanMoved s t
  | taken {t : State} (n : Nat)
      (h : t.store = s.store.setEntry n { s.store.entry n with refCount := (s.store.entry n).refCount + 1 }) : PlanMoved s t
  | given {t : State} (n : Nat) (h : t.store = s.store.unreferenced n) : PlanMoved s t

theorem Move.plans {s t : State} (h : Move b g d s t) : PlanMoved s t := by
  cases h with
  | still h =>
    have hStore : { t.store with common := commonReset } = { s.store with common := commonReset } := congrArg Frame.store h
    simp only [PlanStore.mk.injEq, and_true] at hStore
    exact .same hStore.1 hStore.2.1
  | drive | config | manual | unmanned | load | held | resume | release | clear => exact .same rfl rfl
  | start v => exact .taken v.plan (beginPlan_store b v s)
  | divert cause => rw [divertBay_shared]; exact .same rfl rfl
  | post res =>
    have hStore := (postResult_shared b res s).2.1
    exact .same (by rw [hStore]) (by rw [hStore])
  | closing =>
    have hStore := beginClosing_store b s
    exact .same (by rw [hStore]) (by rw [hStore])
  | aborting cause =>
    have hStore := (beginAborting_shared b cause s).2.1
    exact .same (by rw [hStore]) (by rw [hStore])
  | finish v =>
    have hStore := finishBay_store b v s
    split at hStore
    · exact .same (by rw [hStore]) (by rw [hStore])
    · exact .given _ hStore

theorem PlansOk.of_move {s t : State} (hs : PlansOk s) (h : Move b g d s t) : PlansOk t := by
  cases h.plans with
  | same hSlots hDirectory => exact hs.of_store hSlots hDirectory
  | taken n h => exact hs.referenced h
  | given n h => exact hs.unreferenced h

/-- Settles O8: every change of the Plan Store keeps the plans it does not name, and gives the one it names its standing. -/
theorem publishedChainsStayValid : Obligations.PublishedChainsStayValid := fun _ _ hs hStep =>
  step_keep_of_stir (fun _ _ h => h.of_store rfl rfl) (fun _ _ h hs => hs.of_effect h) (fun _ _ _ h hs => hs.of_move h) hs hStep

end Sys2Proof.Machine
end

section
/-! PROOF. What one command or event leaves alone: the steps of published plans (R31, R36) and the other bays and ports (R80, R95, R132,
R174), with what a hold sets (R18). -/

namespace Sys2Proof.Machine

/-! ## One command or event -/

variable {i : Instr} {s t : State} {g d : Prop}

/-- A predicate that moves keep, that one effect of no bay gives and that hangs on no port or clock holds after a command or event. -/
structure Kept (P : State → Prop) (s : State) : Prop where
  move : ∀ b u v, Move b False False u v → P u → P v
  effect : ∀ u, Effect False s u → P u
  shared : ∀ u v : State, v.cell = u.cell → v.store = u.store → v.bays = u.bays → P u → P v

section
variable {P : State → Prop}

theorem Kept.start (h : Kept P s) : P s := h.effect s .same

theorem Kept.mapPort (h : Kept P s) (p : PortId) (f : Port → Port) {u : State} (hu : P u) : P (mapPort p f u) :=
  h.shared u _ rfl rfl rfl hu

theorem Kept.moves (h : Kept P s) {b : BayId} {u v : State} (hm : Moves b False False u v) (hu : P u) : P v := hm.keep (h.move b) hu

theorem Kept.serve (h : Kept P s) (p : PortId) (i : Instr) : P (serve p i (bodyOf i) s) := by
  by_cases hCarried : p ∈ carriedOn i
  · rw [serve_carried _ _ hCarried]
    refine h.mapPort p _ ?_
    cases hBay : bayOf i with
    | some b => exact h.moves (body_moves hBay) h.start
    | none => exact h.effect _ (body_effect hBay)
  · rw [serve_foreign _ _ hCarried]
    exact h.mapPort p _ h.start

theorem Kept.driveTicks (h : Kept P s) (bs : List BayId) {u : State} (hu : P u) : P (driveTicks bs u) := by
  unfold Machine.driveTicks
  induction bs generalizing u with
  | nil => exact hu
  | cons b bs ih => exact ih (h.moves (driveTick_moves u False.elim False.elim) hu)

theorem Kept.tick (h : Kept P s) (hSensor : ∀ b f u, P u → P (mapSensor b f u)) (order : List BayId) : P (tick order s) := by
  have hFold : ∀ (bs : List BayId) (u : State), P u → P (bs.foldl (fun t b => mapSensor b SensorLink.tick t) u) := by
    intro bs
    induction bs with
    | nil => exact fun u hu => hu
    | cons b bs ih => exact fun u hu => ih _ (hSensor b _ u hu)
  rw [tick_eq]
  exact h.shared (sensorTick (Machine.driveTicks (tickOrder order) (advanceTime s))) _ rfl rfl rfl (hFold allBays _ (h.driveTicks _ (h.effect _ .clock)))

theorem Kept.exec (h : Kept P s) (hSensor : ∀ b f u, P u → P (mapSensor b f u)) (hExec : exec i s = .next t) : P t := by
  cases hPort : portOf i with
  | some p => rw [exec_command hPort] at hExec; cases hExec; exact h.serve p i
  | none =>
    cases hBay : bayOf i with
    | some b => exact h.moves (event_moves hPort hBay hExec False.elim) h.start
    | none =>
      cases i <;> first | exact absurd hPort (Option.some_ne_none _) | exact absurd hBay (Option.some_ne_none _) | skip
      case powerOnReset => cases hExec; exact h.effect _ (.reset id)
      case millisecondTick order => cases hExec; exact h.tick hSensor order
      case reductionComplete =>
        cases hExec
        split
        · next j _ => exact h.moves (completeReduction_moves j s) h.start
        · exact h.start
      case quietTimerExpiry p => cases hExec; exact h.mapPort p _ h.start
      case transferStart p => cases hExec; exact h.mapPort p _ h.start
      case requestTaken p bytes extra => cases hExec; exact h.mapPort p _ h.start
      case responseReady p =>
        cases hExec
        refine h.mapPort p _ ?_
        unfold runRequest
        split
        · next cmd _ =>
          cases hCmd : portOf cmd with
          | some p' => rw [runCommand_command hCmd]; exact h.serve p' cmd
          | none => rw [runCommand_event hCmd]; exact h.start
        · exact h.start

end

/-! ## The steps of published plans (R31, R36) -/

/-- A plan that stands published. -/
def PlanStore.published (st : PlanStore) (n : Nat) : Prop := (st.entry n).state = .ready ∨ (st.entry n).state = .retiring

/-- Slot `k` holds step `o` of a published plan, or that plan is EMPTY. -/
def StepKept (k : Nat) (o : OwnedStep) (s : State) : Prop :=
  s.store.slotAt k = some o ∧ s.store.published o.plan ∨ (s.store.entry o.plan).state = .empty

theorem StepKept.of_standing {k : Nat} {o : OwnedStep} (h : StepKept k o s) (hSlot : t.store.slotAt k = s.store.slotAt k)
    (hEntry : (t.store.entry o.plan).standing = (s.store.entry o.plan).standing) : StepKept k o t := by
  obtain ⟨hState, -⟩ := PlanEntry.of_standing hEntry
  rw [StepKept, PlanStore.published, hSlot, hState]
  exact h

theorem StepKept.of_store {k : Nat} {o : OwnedStep} (h : StepKept k o s) (hSlots : t.store.slots = s.store.slots)
    (hDirectory : t.store.directory = s.store.directory) : StepKept k o t :=
  h.of_standing (by rw [PlanStore.slotAt, hSlots]; rfl) (by rw [PlanStore.entry, hDirectory]; rfl)

theorem StepKept.of_move {k : Nat} {o : OwnedStep} {b : BayId} (hn : isPlanNumber o.plan = true) (hs : StepKept k o s)
    (h : Move b g d s t) : StepKept k o t := by
  cases h.plans with
  | same hSlots hDirectory => exact hs.of_store hSlots hDirectory
  | taken n h =>
    refine hs.of_standing (by rw [h]; exact PlanStore.slotAt_setEntry ..) ?_
    rw [h]
    by_cases ho : o.plan = n
    · subst ho; exact (congrArg PlanEntry.standing (PlanStore.entry_setEntry_same _ _ hn)).trans rfl
    · exact congrArg PlanEntry.standing (PlanStore.entry_setEntry_other _ _ ho)
  | given n h =>
    by_cases ho : o.plan = n
    · subst ho
      by_cases hLast : (s.store.entry o.plan).state = .retiring ∧ (s.store.entry o.plan).refCount ≤ 1
      · exact .inr (by rw [h, PlanStore.entry_unreferenced_same _ hn, if_pos hLast])
      · refine hs.of_standing (by rw [h, PlanStore.slotAt_unreferenced, if_neg hLast]) ?_
        rw [h, PlanStore.entry_unreferenced_same _ hn, if_neg hLast]
        rfl
    · have hEntry : t.store.entry o.plan = s.store.entry o.plan := by rw [h, PlanStore.entry_unreferenced_other _ ho]
      obtain ⟨hSlot, hPublished⟩ | hEmpty := hs
      · refine .inl ⟨?_, by rwa [PlanStore.published, hEntry]⟩
        rw [h, PlanStore.slotAt_unreferenced, hSlot]
        split
        · simp [Option.filter, ho]
        · rfl
      · exact .inr (by rw [hEntry]; exact hEmpty)

theorem StepKept.of_effect {k : Nat} {o : OwnedStep} (hn : isPlanNumber o.plan = true) (hSlot : s.store.slotAt k = some o)
    (hPublished : s.store.published o.plan) (h : Effect False s t) : StepKept k o t := by
  have hs : StepKept k o s := .inl ⟨hSlot, hPublished⟩
  have hOther : ∀ {n : Nat} {ps : PlanState}, (s.store.entry n).state = ps → ps = .empty ∨ ps = .loading → o.plan ≠ n := by
    rintro n ps hState h rfl
    rw [PlanStore.published, hState] at hPublished
    obtain rfl | rfl := h <;> obtain h | h := hPublished <;> cases h
  cases h with
  | same => exact hs
  | clock | cellState | settings | variant | unvariant | common | ports => exact hs.of_store rfl rfl
  | take => exact hs.of_store (by rw [takeHead_store]) (by rw [takeHead_store])
  | reset => exact .inr (by rw [powerOn_store, entry_reset]; rfl)
  | cleared => exact .inr (by rw [entry_cleared _ hn]; rfl)
  | opened n _ hEmpty =>
    refine hs.of_standing (PlanStore.slotAt_setEntry ..) ?_
    exact congrArg PlanEntry.standing (PlanStore.entry_setEntry_other _ _ (hOther hEmpty (.inl rfl)))
  | written n j r _ hj hLoading hOwn =>
    refine hs.of_standing ?_ rfl
    refine (PlanStore.slotAt_setSlot _ _ (by omega) k).trans (if_neg ?_)
    rintro rfl
    exact hOther hLoading (.inr rfl) (hOwn o hSlot)
  | published n head flag visited total _ hLoading =>
    have ho := hOther hLoading (.inr rfl)
    refine hs.of_standing ?_ ?_
    · exact (PlanStore.slotAt_publish_other _ _ _ _ _ hSlot ho).trans hSlot.symm
    · exact congrArg PlanEntry.standing (PlanStore.entry_publish_other _ _ _ _ _ ho)
  | emptied n ps =>
    by_cases ho : o.plan = n
    · exact .inr (by subst ho; exact congrArg PlanEntry.state (PlanStore.entry_emptyPlan_same s.store hn))
    · refine hs.of_standing ?_ (congrArg PlanEntry.standing (PlanStore.entry_emptyPlan_other _ ho))
      exact ((planChanged_emptyPlan s.store n).kept k o ho hSlot).trans hSlot.symm
  | retired n =>
    refine .inl ⟨(PlanStore.slotAt_setEntry ..).trans hSlot, ?_⟩
    by_cases ho : o.plan = n
    · subst ho
      exact .inr (congrArg PlanEntry.state (PlanStore.entry_setEntry_same s.store _ hn))
    · rw [PlanStore.published, withStore, PlanStore.entry_setEntry_other _ _ ho]
      exact hPublished

/-- Settles O15. -/
theorem publishedStepsAreNotWritten : Obligations.PublishedStepsAreNotWritten := by
  intro i s t k o hExec hSlot hn hPublished
  have hKept : Kept (StepKept k o) s := ⟨fun _ _ _ h hu => hu.of_move hn h, fun _ h => .of_effect hn hSlot hPublished h,
    fun _ _ _ hStore _ hu => hu.of_store (by rw [hStore]) (by rw [hStore])⟩
  exact (hKept.exec (fun _ _ _ hu => hu.of_store rfl rfl) hExec).imp And.left id

/-! ## The other bays and ports (R80, R95, R132, R133, R174) -/

theorem Moves.seen {b c : BayId} (h : Moves b g d s t) (hc : c ≠ b) : (t.bay c).seen false = (s.bay c).seen false :=
  h.keep (P := fun u => (u.bay c).seen false = (s.bay c).seen false) (fun _ _ hm hu => (hm.seen hc).trans hu) rfl

theorem Moves.unnoticed {b : BayId} (h : Moves b g d s t) (p : PortId) : (t.port p).unnoticed = (s.port p).unnoticed :=
  h.keep (P := fun u => (u.port p).unnoticed = (s.port p).unnoticed) (fun _ _ hm hu => (hm.unnoticed p).trans hu) rfl

/-- A command or event of one bay moves that bay, and writes its answer to the port that brought it. -/
theorem exec_ofBay {b : BayId} (hBay : bayOf i = some b) (h : exec i s = .next t) : ∃ u, Moves b False False s u ∧
    t.bays = u.bays ∧ ∀ q, portOf i ≠ some q → t.port q = u.port q := by
  cases hPort : portOf i with
  | none => exact ⟨t, event_moves hPort hBay h False.elim, rfl, fun _ _ => rfl⟩
  | some p =>
    rw [exec_command hPort] at h
    cases h
    have hAnswered : ∀ (st : Status) (payload : List Byte) (u : State) (q : PortId), some p ≠ some q →
        (answered p i st payload u).port q = u.port q := fun st payload u q hq => mapPort_port_other _ _ fun e => hq (by rw [e])
    by_cases hCarried : p ∈ carriedOn i
    · rw [serve_carried _ _ hCarried]
      exact ⟨_, body_moves hBay, rfl, fun q hq => hAnswered _ _ _ q hq⟩
    · rw [serve_foreign _ _ hCarried]
      exact ⟨s, .refl, rfl, fun q hq => hAnswered _ _ _ q hq⟩

theorem BayRecord.ungranted_eq_iff {r q : BayRecord} :
    q.ungranted = r.ungranted ↔ { q with phase := r.phase, lines := r.lines } = r := by
  constructor
  · intro h
    cases r; cases q
    simp only [ungranted, BayRecord.mk.injEq] at h ⊢
    simp_all
  · intro h
    show ungranted { q with phase := r.phase, lines := r.lines } = r.ungranted
    rw [h]

theorem ListenBuffer.contents_eq_iff {x y : ListenBuffer} : y.contents = x.contents ↔ { y with state := x.state } = x := by
  constructor
  · intro h
    cases x; cases y
    simp only [contents, ListenBuffer.mk.injEq] at h ⊢
    simp_all
  · intro h
    show contents { y with state := x.state } = x.contents
    rw [h]

/-- Settles O14: everything that one bay does leaves what the others show. -/
theorem bayEventsKeepOtherBays : Obligations.BayEventsKeepOtherBays := by
  intro i b c s t hBay hc hExec
  obtain ⟨u, hMoves, hBays, hPorts⟩ := exec_ofBay hBay hExec
  have hSeen : (t.bay c).seen false = (s.bay c).seen false := by
    rw [State.bay, hBays]
    exact hMoves.seen hc
  obtain ⟨hConfig, hRecord, hDrive, hSensor, hNoise⟩ := Bay.seen_other hSeen
  simp only [NoiseUnit.contents, NoiseUnit.mk.injEq] at hNoise
  obtain ⟨hA0, hA1, hRow, hStaging⟩ := hNoise
  refine ⟨hConfig, hDrive, hSensor, BayRecord.ungranted_eq_iff.mp hRecord, fun k => ?_, hRow, hStaging, fun q hq => ?_⟩
  · cases k
    · exact ListenBuffer.contents_eq_iff.mp hA0
    · exact ListenBuffer.contents_eq_iff.mp hA1
  · rw [hPorts q hq]
    exact Port.unnoticed_eq_iff.mp (hMoves.unnoticed q)

end Sys2Proof.Machine
end

section
/-! PROOF. The port's side of the exchange: what SEL falling shifts out (R164, R166), the response to a dispatched command (R168), and the
notice commands (R174 to R178). -/

namespace Sys2Proof.Machine

theorem mapPort_congr {p : PortId} {f g : Port → Port} {s : State} (h : f (s.port p) = g (s.port p)) : mapPort p f s = mapPort p g s := by
  have h' : f (s.ports.get p) = g (s.ports.get p) := h
  simp only [mapPort, h']

theorem mapPort_eq_self {p : PortId} {f : Port → Port} {s : State} (h : f (s.port p) = s.port p) : mapPort p f s = s := by
  have hPorts : (mapPort p f s).ports = s.ports := Ports.ext_get fun q => by
    show (mapPort p f s).port q = s.port q
    rw [mapPort_port]
    split
    · next hq => subst hq; exact h
    · rfl
  calc mapPort p f s = { s with ports := (mapPort p f s).ports } := rfl
    _ = s := by rw [hPorts]

/-! ## SEL falls (R164, R166) -/

theorem bitmap_two (x y : Bool) : bitmap [x, y] = BitVec.ofNat 8 ((if x then 1 else 0) + (if y then 2 else 0)) := by
  cases x <;> cases y <;> rfl

theorem responseFrame_eq (r : Response) (cut : Bool) : responseFrame r cut = withCheck ([BitVec.ofNat 8 (statusCode r.status), r.tag,
    BitVec.ofNat 8 ((if r.notice then 1 else 0) + (if cut then 2 else 0)), BitVec.ofNat 8 r.payload.length] ++ r.payload) := by
  simp only [responseFrame, bitmap_two, bytesOf_one, List.cons_append, List.nil_append]

theorem bareFrame_eq (p : Port) (st : Status) (cut : Bool) : responseFrame (p.bareResponse st) cut = withCheck
    [BitVec.ofNat 8 (statusCode st), 0, BitVec.ofNat 8 ((if p.notices = [] then 0 else 1) + (if cut then 2 else 0)), 0] := by
  rw [responseFrame_eq]
  cases hSet : p.notices <;> simp only [Port.bareResponse, hSet] <;> rfl

/-- Settles O40. -/
theorem transferStartShiftsOut : Obligations.TransferStartShiftsOut := by
  intro p s notice cut
  have started : ∀ {g : Port → Port}, (s.port p).startTransfer = g (s.port p) → exec (.transferStart p) s = .next (mapPort p g s) :=
    fun h => congrArg Host.Outcome.next (mapPort_congr h)
  refine ⟨fun h => started ?executing, fun h hNone => started ?idle, fun r h hSome => started ?response, fun k h => ?inside⟩
  case executing =>
    simp only [Port.startTransfer, h, Port.startNotReady, bareFrame_eq]
    rfl
  case idle =>
    simp only [Port.startTransfer, h, hNone, Port.startIdle, bareFrame_eq]
    rfl
  case response =>
    have hLength : (responseFrame r (s.port p).cutMark).length = 6 + r.payload.length := by rw [length_responseFrame, Nat.add_comm]
    simp only [Port.startTransfer, h, hSome, Port.startResponse]
    rw [hLength, responseFrame_eq]
  case inside =>
    refine congrArg Host.Outcome.next (mapPort_eq_self ?_)
    simp only [Port.startTransfer, h]

/-! ## The response is ready (R164, R166, R168) -/

theorem Port.exchange_fields {p q : Port} (h : q.exchange = p.exchange) : q.state = p.state ∧ q.request = p.request ∧
    q.preparing = p.preparing := by
  simp only [Port.exchange, Port.mk.injEq] at h
  obtain ⟨hState, -, -, hRequest, hPreparing, -⟩ := h
  exact ⟨hState, hRequest, hPreparing⟩

/-- A dispatched command's execution is its answer to a state whose exchange is as it was. -/
theorem exec_dispatched {cmd : Instr} {p : PortId} (h : portOf cmd = some p) (s : State) : ∃ st pl v,
    exec cmd s = .next (answered p cmd st pl v) ∧ (v.port p).exchange = (s.port p).exchange := by
  rw [exec_command h]
  by_cases hCarried : p ∈ carriedOn cmd
  · exact ⟨_, _, _, by rw [serve_carried _ _ hCarried], body_exchange cmd s p⟩
  · exact ⟨_, _, s, by rw [serve_foreign _ _ hCarried], rfl⟩

theorem exec_responseReady (p : PortId) (s : State) : exec (.responseReady p) s = .next (mapPort p Port.finishResponse (runRequest p s)) := rfl

/-- With a response in preparation the port takes it, in EXECUTING and in a NOT_READY transfer. -/
theorem finishResponse_executing {p : Port} {r : Response} (h : p.preparing = some r) (hState : p.state = .executing) :
    p.finishResponse = { p with preparing := none, response := some r, state := .quiet } := by
  simp only [Port.finishResponse, h, hState]

theorem finishResponse_notReady {p : Port} {r : Response} (h : p.preparing = some r) (hState : p.state = .inTransfer .notReady) :
    p.finishResponse = { p with preparing := none, response := some r, state := .inTransfer .notReady } := by
  simp only [Port.finishResponse, h, hState]

/-- Settles O42. -/
theorem responseReadyAnswersRequest : Obligations.ResponseReadyAnswersRequest := by
  intro p s ready
  have hIdle : (s.port p).request = none → runRequest p s = s := fun h => by simp only [runRequest, h]
  refine ⟨fun hRequest hPreparing => ?nothing, fun r hRequest hPreparing => ?prepared, fun tag cmd hRequest hPort => ?dispatched⟩
  case nothing =>
    rw [exec_responseReady, hIdle hRequest, mapPort_eq_self]
    simp only [Port.finishResponse, hPreparing]
  case prepared =>
    rw [exec_responseReady, hIdle hRequest]
    exact ⟨fun hState => congrArg Host.Outcome.next (mapPort_congr (finishResponse_executing hPreparing hState)),
      fun hState => congrArg Host.Outcome.next (mapPort_congr (finishResponse_notReady hPreparing hState))⟩
  case dispatched =>
    obtain ⟨st, pl, v, hExec, hExchange⟩ := exec_dispatched hPort s
    obtain ⟨hState, hKept, -⟩ := Port.exchange_fields hExchange
    rw [hRequest] at hKept
    have hPort' : (answered p cmd st pl v).port p = { v.port p with
        preparing := some ⟨st, tag, !(v.port p).notices.isEmpty, pl⟩, request := none } := by
      rw [answered, mapPort_port_same]
      simp [Port.prepare, tagOf, hKept]
    have hRun : runRequest p s = answered p cmd st pl v := by
      have hNext := hExec
      rw [exec_command hPort] at hNext
      simp only [runRequest, hRequest, runCommand_command hPort]
      exact Host.Outcome.next.inj hNext
    refine ⟨_, _, hExec, by rw [hPort'], by rw [hPort'], rfl, ?_, fun h => ?_, fun h => ?_⟩
    · rw [hPort']
      cases (v.port p).notices <;> simp
    · rw [exec_responseReady, hRun]
      exact congrArg Host.Outcome.next (mapPort_congr (finishResponse_executing (by rw [hPort']) (by rw [hPort']; exact hState.trans h)))
    · rw [exec_responseReady, hRun]
      exact congrArg Host.Outcome.next (mapPort_congr (finishResponse_notReady (by rw [hPort']) (by rw [hPort']; exact hState.trans h)))

/-! ## Notices (R174 to R178) -/

theorem Notice.cls_bounds (n : Notice) : 1 ≤ n.cls ∧ n.cls ≤ 10 := by
  cases n <;> simp [cls]

theorem unmasked_setWidth (mask : BitVec 16) (n : Notice) : unmasked (mask.setWidth 10) n = mask.getLsbD (n.cls - 1) := by
  have h := n.cls_bounds
  simp [unmasked, BitVec.getLsbD_setWidth]
  omega

/-- In an ordered set the head is the pair with the least key. -/
theorem head_of_least {p : Port} {n m : Notice} {rest : List Notice} (hOk : p.NoticesOk) (hSet : p.notices = m :: rest)
    (hn : n ∈ p.notices) (hUnique : ∀ k ∈ p.notices, k.key = n.key → k = n) (hLeast : ∀ k ∈ p.notices, n.key ≤ k.key) : m = n := by
  have hm : m ∈ p.notices := by rw [hSet]; exact List.mem_cons_self
  refine hUnique m hm (Nat.le_antisymm ?_ (hLeast m hm))
  have hOrdered := hOk.ordered
  rw [hSet, List.pairwise_cons] at hOrdered
  rw [hSet] at hn
  rcases List.mem_cons.mp hn with rfl | hn
  · exact Nat.le_refl _
  · exact hOrdered.1 n hn

theorem mem_carriedOn_every {i : Instr} {p : PortId} (h : carriedOn i = [.line, .cell, .archive]) : p ∈ carriedOn i := by
  rw [h]; cases p <;> decide

theorem exec_ofPort {i : Instr} {p : PortId} {s t : State} {payload : List Byte} (hPort : portOf i = some p) (hCarried : p ∈ carriedOn i)
    (h : bodyOf i s = accept payload t) : exec i s = .next (answered p i .ok payload t) := exec_accepted hPort hCarried h

/-- Settles O43. -/
theorem noticeCommandsKeepTheSet : Obligations.NoticeCommandsKeepTheSet := by
  intro p s
  refine ⟨fun h => ?empty, fun n hn hOk hLeast hUnique => ?next, fun mask => ?mask, fun ms => ?interval, fun h => ?expired, fun h => ?running⟩
  case empty =>
    refine exec_ofPort rfl (mem_carriedOn_every rfl) ?_
    simp only [bodyOf, runNextNotice, h]
    rfl
  case next =>
    obtain ⟨m, rest, hSet⟩ := List.exists_cons_of_ne_nil (List.ne_nil_of_mem hn)
    obtain rfl := head_of_least hOk hSet hn hUnique hLeast
    have hOnce := hOk.once
    rw [hSet, List.nodup_cons] at hOnce
    have hPort : (mapPort p (Port.dropNotice rest) s).port p = (s.port p).dropNotice rest := mapPort_port_same ..
    refine ⟨mapPort p (Port.dropNotice rest) s, exec_ofPort rfl (mem_carriedOn_every rfl) ?_, ?_, length_noticeDetail .., ?_⟩
    · have hMore : byteOfBool (!rest.isEmpty) = [if rest = [] then 0 else 1] := by cases rest <;> rfl
      rw [hPort]
      simp only [bodyOf, runNextNotice, hSet, hMore]
      rfl
    · cases m <;> rfl
    · rw [hPort]
      refine ⟨hOnce.1, fun k hk => ?_, fun h => ?_, fun h => ?_, rfl, rfl, fun q hq => mapPort_port_other _ _ hq⟩
      · rw [hSet]
        exact ⟨List.mem_cons_of_mem _, fun h => (List.mem_cons.mp h).resolve_left hk⟩
      · have hRest : rest = [] := h
        subst hRest
        exact ⟨rfl, rfl⟩
      · have hRest : rest.isEmpty = false := List.isEmpty_eq_false_iff.mpr h
        simp [Port.dropNotice, Port.refreshNtf, hRest]
  case mask =>
    have hPort : (mapPort p (Port.setMask (mask.setWidth 10)) s).port p = (s.port p).setMask (mask.setWidth 10) := mapPort_port_same ..
    refine ⟨mapPort p (Port.setMask (mask.setWidth 10)) s, exec_ofPort rfl (mem_carriedOn_every rfl) ?_, ?_⟩
    · simp [bodyOf, runSetNoticeMask]
    · rw [hPort]
      refine ⟨by simp [Port.setMask, Port.refreshNtf], fun m => ?_, fun h => ?_, rfl, rfl, fun q hq => mapPort_port_other _ _ hq⟩
      · rw [← unmasked_setWidth]
        exact List.mem_filter
      · have hNone : ((s.port p).notices.filter (unmasked (mask.setWidth 10))) = [] := h
        simp [Port.setMask, Port.refreshNtf, hNone]
  case interval =>
    refine exec_ofPort rfl (mem_carriedOn_every rfl) ?_
    have hClamp : clampNat 0 1000 ms = min 1000 ms := by rw [clampNat_min 0 1000 ms (Nat.zero_le _), Nat.zero_max]
    rw [← hClamp]
    rfl
  case expired =>
    refine congrArg Host.Outcome.next (mapPort_congr ?_)
    have hFlag : (!(s.port p).notices.isEmpty) = decide ((s.port p).notices ≠ []) := by cases (s.port p).notices <;> simp
    simp [Port.quietExpired, h, Port.refreshNtf, hFlag]
  case running =>
    refine congrArg Host.Outcome.next (mapPort_eq_self ?_)
    exact if_neg h

end Sys2Proof.Machine
end

section
/-! PROOF. What a report of a drive does (R74 to R78, R82, R86, R90, R93), and how a wind-down ends (R67 to R70, R90, R91). -/

namespace Sys2Proof.Machine

variable {b : BayId} {s : State}

/-! ## The parts of a report (R74) -/

theorem examineRamp_idle (h : (s.record b).phase ≠ .ramping) (h' : (s.record b).phase ≠ .tracking) : examineRamp b s = s :=
  if_neg fun e => e.elim h h'

theorem examineEnding_idle (h : (s.bay b).drive.windDown = .none) : examineEnding b s = s :=
  examineEnding_turning (examineWindDown_notInProgress (by simp [h])) (by simp [h])

theorem examineRamp_working {o : RampOps} (h : (s.record b).phase = .ramping ∨ (s.record b).phase = .tracking)
    (hLatched : (s.record b).latched = some (.ramp o)) : examineRamp b s =
      if (s.bay b).drive.tracked o then endStep b s
      else if (s.bay b).drive.x = o.target * 1000 then setPhase b .tracking s else s := by
  rw [examineRamp]
  simp only [if_pos h, hLatched]

theorem tracked_iff (d : DriveLink) (o : RampOps) : d.tracked o = true ↔
    d.x = o.target * 1000 ∧ ((d.latest.elim 0 (·.speed) - o.target).natAbs : Int) ≤ o.tolerance := by
  simp [DriveLink.tracked, DriveLink.latestSpeed]

theorem accumulate_fault {rep : DriveReport} (h : rep.state = .fault) (d : DriveLink) : d.accumulate rep = d := by
  unfold DriveLink.accumulate
  split
  · rfl
  · exact if_pos h

@[simp] theorem takeReport_faultSeen (rep : DriveReport) (d : DriveLink) : (d.takeReport rep).faultSeen = d.faultSeen := rfl
@[simp] theorem reported_windDown (rep : DriveReport) (d : DriveLink) : (d.reported rep).windDown = d.windDown := rfl
@[simp] theorem reported_x (rep : DriveReport) (d : DriveLink) : (d.reported rep).x = d.x := rfl
@[simp] theorem reported_latest (rep : DriveReport) (d : DriveLink) : (d.reported rep).latest = some rep := rfl

/-- Beside its fault check, a taken report makes the drive a reported one. -/
theorem reported_eq (rep : DriveReport) (d : DriveLink) :
    ({ d.takeReport rep with faultSeen := decide (rep.state = .fault) } : DriveLink).accumulate rep = d.reported rep := by
  unfold DriveLink.accumulate DriveLink.reported DriveLink.takeReport
  cases hDwell : d.dwell with
  | none => simp
  | some acc => by_cases h : rep.state = .fault <;> simp [h]

/-- The check of a report that shows no new fault only sets the mark. -/
theorem faultCheck_seen {st : DriveState} (h : st = .fault → (s.bay b).drive.faultSeen = true) :
    faultCheck b st s = mapDrive b (fun d => { d with faultSeen := decide (st = .fault) }) s := by
  unfold faultCheck
  by_cases hFault : st = .fault
  · have hSeen := h hFault
    rw [if_pos hFault, if_pos hSeen]
    exact (mapDrive_eq_self (by rw [decide_eq_true hFault, ← hSeen])).symm
  · rw [if_neg hFault]
    exact mapDrive_congr (by rw [decide_eq_false hFault])

theorem takeDriveReport_plain {rep : DriveReport} (h : rep.state = .fault → (s.bay b).drive.faultSeen = true) :
    takeDriveReport b rep s = examineEnding b (examineRamp b (mapDrive b (DriveLink.reported rep) s)) := by
  have hCheck : faultCheck b rep.state (mapDrive b (DriveLink.takeReport rep) s) = _ := faultCheck_seen (by simpa using h)
  rw [takeDriveReport, hCheck, mapDrive_mapDrive, mapDrive_mapDrive]
  exact congrArg _ (congrArg _ (mapDrive_congr (reported_eq rep _)))

/-- A first FAULT report gives DRIVE_FAULT to the owner of the bay. -/
theorem takeDriveReport_fault {rep : DriveReport} (h : rep.state = .fault) (hNew : (s.bay b).drive.faultSeen = false) :
    takeDriveReport b rep s =
      examineEnding b (examineRamp b (driveEvent b .driveFault (mapDrive b (DriveLink.reported rep) s))) := by
  have hCheck : faultCheck b rep.state (mapDrive b (DriveLink.takeReport rep) s) =
      driveEvent b .driveFault (mapDrive b (DriveLink.reported rep) s) := by
    rw [faultCheck, if_pos h, if_neg (by simpa using hNew), mapDrive_mapDrive]
    refine congrArg _ (mapDrive_congr ?_)
    rw [← reported_eq, accumulate_fault h, decide_eq_true h]
  rw [takeDriveReport, hCheck, mapDrive_eq_self (accumulate_fault h _)]

theorem exec_driveReport_taken {echo : Byte} (st : DriveState) (speed torque : BitVec 16)
    (h : (s.bay b).drive.awaited = some echo) : exec (.driveReport b echo st speed torque (reportCheck echo st speed torque)) s =
      .next (takeDriveReport b ⟨st, speed.toInt, torque.toInt⟩ s) :=
  congrArg Host.Outcome.next (if_pos (by simp [DriveLink.matchesReport, h]))

theorem exec_driveReport_dropped {echo : Byte} {st : DriveState} {speed torque check : BitVec 16}
    (h : check ≠ reportCheck echo st speed torque ∨ (s.bay b).drive.awaited ≠ some echo) :
    exec (.driveReport b echo st speed torque check) s = .next s := by
  refine congrArg Host.Outcome.next (if_neg fun hm => ?_)
  simp only [DriveLink.matchesReport, Bool.and_eq_true, beq_iff_eq] at hm
  exact h.elim (fun hc => hc hm.1) fun ha => ha hm.2

/-- Whether a wind-down goes on with a report is seen from x and its speed. -/
theorem reported_turning {rep : DriveReport} (h : (s.bay b).drive.x ≠ 0 ∨ 5 < rep.speed.natAbs) :
    ((mapDrive b (DriveLink.reported rep) s).bay b).drive.x ≠ 0 ∨
      5 < ((((mapDrive b (DriveLink.reported rep) s).bay b).drive.latest).elim 0 (·.speed)).natAbs := by
  rw [mapDrive_bay_same]
  exact h

/-! ## Reports out of a RAMP step and in one (R74, R82) -/

/-- Settles O24. -/
theorem driveReportIsTaken : Obligations.DriveReportIsTaken := by
  intro b echo st speed torque check s d good rep
  refine ⟨exec_driveReport_dropped, fun hGood hAwaited hFault => ?_⟩
  have hTaken : exec (.driveReport b echo st speed torque check) s =
      .next (examineEnding b (examineRamp b (mapDrive b (DriveLink.reported rep) s))) := by
    rw [hGood, show good = reportCheck echo st speed torque from rfl, exec_driveReport_taken _ _ _ hAwaited,
      takeDriveReport_plain hFault]
  rw [hTaken]
  refine ⟨fun hRamping hTracking hWind => congrArg Host.Outcome.next ?waiting, fun o hPhase hLatched hWind => ?ramp⟩
  case waiting =>
    rw [examineRamp_idle (by simpa using hRamping) (by simpa using hTracking)]
    obtain hNone | ⟨⟨t0, hProgress⟩, hTurning⟩ | ⟨hOver, hState, hPending⟩ := hWind
    · exact examineEnding_idle (by simpa using show (s.bay b).drive.windDown = .none from hNone)
    · refine examineEnding_turning (examineWindDown_turning (reported_turning hTurning)) ?_
      rw [mapDrive_bay_same]
      show d.windDown ≠ .over
      simp [hProgress]
    · rw [examineEnding, mapDrive_eq_self (examineWindDown_notInProgress ?_)]
      · exact settleEnding_closing_pending (by simpa using hState) (by simpa using hPending)
      · rw [mapDrive_bay_same]
        show ∀ start, d.windDown ≠ .inProgress start
        simp [hOver]
  case ramp =>
    have hRamp : examineRamp b (mapDrive b (DriveLink.reported rep) s) =
        if d.x = o.target * 1000 ∧ ((speed.toInt - o.target).natAbs : Int) ≤ o.tolerance then
          endStep b (mapDrive b (DriveLink.reported rep) s)
        else if d.x = o.target * 1000 then setPhase b .tracking (mapDrive b (DriveLink.reported rep) s)
        else mapDrive b (DriveLink.reported rep) s := by
      rw [examineRamp_working (by simpa using hPhase) (by simpa using hLatched)]
      simp only [tracked_iff, mapDrive_bay_same]
      rfl
    rw [hRamp]
    refine ⟨fun hx hSpeed => ?_, fun hx hSpeed => congrArg Host.Outcome.next ?_, fun hx => congrArg Host.Outcome.next ?_⟩
    · rw [if_pos ⟨hx, hSpeed⟩]
    · rw [if_neg fun h => absurd h.2 (by omega), if_pos hx]
      exact examineEnding_idle (by simpa [setPhase] using show (s.bay b).drive.windDown = .none from hWind)
    · rw [if_neg fun h => hx h.1, if_neg hx]
      exact examineEnding_idle (by simpa using show (s.bay b).drive.windDown = .none from hWind)

/-! ## Manual (R22, R78, R93) -/

theorem jogStopped_eq (ramp : Nat) (d : DriveLink) : d.stopJog ramp = d.jogStopped ramp := by
  unfold DriveLink.stopJog DriveLink.jogStopped
  split
  · rfl
  · by_cases hx : d.x = 0
    · rw [if_pos hx]; exact DriveLink.manualEnable_rest rfl hx
    · rw [if_neg hx]; exact DriveLink.manualEnable_moving (.inr hx)

theorem jogStop_jogStopped (b : BayId) (s : State) : jogStop b s = mapDrive b (DriveLink.jogStopped s.cell.stopRamp) s := by
  rw [jogStop_eq]
  exact mapDrive_congr (jogStopped_eq ..)

theorem jogStopped_windDown (ramp : Nat) (d : DriveLink) : (d.jogStopped ramp).windDown = d.windDown := by
  unfold DriveLink.jogStopped
  split
  · rfl
  · split <;> rfl

theorem driveEvent_cell {c : Cause} (h : (s.record b).owner = .cell) :
    driveEvent b c s = raise (.fault b) (mapDrive b (DriveLink.jogStopped s.cell.stopRamp) s) := by
  rw [driveEvent, h, ← jogStop_jogStopped]

theorem driveEvent_sequencer {c : Cause} (h : (s.record b).owner = .sequencer) : driveEvent b c s = takeFault b c s := by
  rw [driveEvent, h]

theorem driveEvent_line {c : Cause} (h : (s.record b).owner = .line) : driveEvent b c s = s := by
  rw [driveEvent, h]

theorem exec_driveLost_due (hEnable : (s.bay b).drive.enable = true) (hMissed : (s.bay b).drive.missed = 20)
    (hGiven : (s.bay b).drive.lostGiven = false) :
    exec (.driveLost b) s = .next (driveEvent b .driveLost (mapDrive b (fun d => { d with lostGiven := true }) s)) :=
  congrArg Host.Outcome.next (if_pos (by simp [DriveLink.lostDue, hEnable, hMissed, hGiven]))

/-- Settles O25. -/
theorem manualEventsStopJog : Obligations.ManualEventsStopJog := by
  intro b s hOwner
  refine ⟨fun hEnable hMissed hGiven => ?lost, fun echo speed torque hAwaited hNew hPhase hWind => ?fault,
    fun hGuard hState => ?guard, fun n hb => ?jog⟩
  case lost =>
    rw [exec_driveLost_due hEnable hMissed hGiven, driveEvent_cell (by simpa using hOwner), mapDrive_mapDrive]
    rfl
  case fault =>
    rw [exec_driveReport_taken _ _ _ hAwaited, takeDriveReport_fault rfl hNew, driveEvent_cell (by simpa using hOwner),
      mapDrive_mapDrive]
    rw [examineRamp_idle (by simp [hPhase]) (by simp [hPhase]), examineEnding_idle]
    · rfl
    · rw [raise_bay, mapDrive_bay_same]
      exact (jogStopped_windDown ..).trans hWind
  case guard =>
    refine congrArg Host.Outcome.next ?_
    have hSet : inputRecorded b .grd false s = mapRecord b (fun r => { r with inputs := r.inputs.set .grd false }) s := if_neg (by decide)
    rw [changeInput_change (by rw [show (s.record b).inputs.get .grd = true from hGuard]; decide), if_neg (by decide), hSet]
    have hFalls : inputFalls b .grd (mapRecord b (fun r => { r with inputs := r.inputs.set .grd false }) s) =
        jogStop b (mapRecord b (fun r => { r with inputs := r.inputs.set .grd false }) s) := by
      have hJog : (InputLine.grd = .grd ∧ ((mapRecord b (fun r => { r with inputs := r.inputs.set .grd false }) s).record b).owner =
          .cell) := ⟨rfl, by simpa using hOwner⟩
      unfold inputFalls
      obtain h | h := hState <;>
        (simp only [mapRecord_recordOf_same, h] at hJog ⊢; exact if_pos hJog)
    rw [hFalls, jogStop_jogStopped]
    rfl
  case jog =>
    refine exec_onBay (i := .jog .cell n 0) (f := runJog 0) (r := accept [0, 0] (mapDrive b (DriveLink.jogStopped s.cell.stopRamp) s))
      rfl (List.mem_singleton.mpr rfl) rfl hb ?_
    rw [← jogStop_jogStopped]
    exact (if_neg (not_not.mpr hOwner)).trans (if_pos rfl)

end Sys2Proof.Machine
end

section
/-! PROOF. What faults and commands do to a bay in ABORTING (R13, R19, R21, R22, R78, R106), how a wind-down ends (R67 to R70, R90, R91),
and the changes of the inputs (R15, R22). -/

namespace Sys2Proof.Machine

variable {b : BayId} {s : State}

/-! ## ABORTING takes a fault (R21) -/

theorem takeFault_aborting {f : Cause} (h : (s.record b).state = .aborting) : takeFault b f s = recordSecondary b f s := by
  rw [takeFault, h]

theorem takeFault_abortable {f : Cause} (h : (s.record b).state.abortable) : takeFault b f s = enterAborting b f s := by
  unfold takeFault
  obtain h | h | h := h <;> rw [h]

theorem exec_pressureLoss_due {w : LossWatch} (hWatch : (s.bay b).sensor.lossWatch = some w) (hMark : w.mark = false)
    (hTimer : w.pressureTimer = 100) : exec (.pressureLoss b) s =
      .next (takeFault b .sensorLost (mapSensor b (fun l => { l with lossWatch := some { w with mark := true } }) s)) := by
  refine congrArg Host.Outcome.next ?_
  have hLost : loseChannel b w s = _ := if_neg (by simp [hMark])
  simp only [hWatch]
  exact (if_pos hTimer).trans hLost

theorem exec_temperatureLoss_due {w : LossWatch} (hWatch : (s.bay b).sensor.lossWatch = some w) (hMark : w.mark = false)
    (hTimer : w.temperatureTimer = 1000) : exec (.temperatureLoss b) s =
      .next (takeFault b .sensorLost (mapSensor b (fun l => { l with lossWatch := some { w with mark := true } }) s)) := by
  refine congrArg Host.Outcome.next ?_
  have hLost : loseChannel b w s = _ := if_neg (by simp [hMark])
  simp only [hWatch]
  exact (if_pos hTimer).trans hLost

/-- Under the sequencer the fall of an input is a fault. -/
theorem inputFalls_sequenced {l : InputLine} (h : (s.record b).state.sequenced = true) :
    inputFalls b l s = takeFault b (fallFault l) s := by
  cases hState : (s.record b).state <;> rw [hState] at h
  case running | held | closing | aborting => simp only [inputFalls, hState]
  case empty | loaded | finished | unloading => cases h

theorem exec_inputFalls {l : InputLine} (h : (s.record b).inputs.get l = true) :
    exec (.inputLineChange b l false) s = .next (inputFalls b l (inputRecorded b l false s)) :=
  congrArg Host.Outcome.next ((changeInput_change (by simp [h])).trans (if_neg (by decide)))

theorem inputRecorded_record (l : InputLine) (v : Bool) :
    (inputRecorded b l v s).record b = { s.record b with inputs := (s.record b).inputs.set l v } := by
  unfold inputRecorded
  split <;> simp

/-- Settles O27. -/
theorem abortingRecordsFirstFault : Obligations.AbortingRecordsFirstFault := by
  refine ⟨fun b s hState hOwner => ?_, fun b echo speed torque s hOwner hPhase hWind hAwaited hNew => ?line⟩
  intro note
  refine ⟨fun hEnable hMissed hGiven => ?lost, fun echo speed torque t0 hAwaited hNew hPhase hWind => ?report,
    fun w hWatch hMark => ⟨fun hTimer => ?pressure, fun hTimer => ?temperature⟩, fun l hl hInput => ?fall, fun hInput => ?axle,
    fun n hb => ⟨?withdraw, ?abort⟩⟩
  case lost =>
    rw [exec_driveLost_due hEnable hMissed hGiven, driveEvent_sequencer (by simpa using hOwner), takeFault_aborting (by simpa using hState)]
    rfl
  case report =>
    intro i u
    have hEvent : driveEvent b .driveFault (mapDrive b (DriveLink.reported ⟨.fault, speed.toInt, torque.toInt⟩) s) = u := by
      rw [driveEvent_sequencer (by simpa using hOwner), takeFault_aborting (by simpa using hState)]
      rfl
    have hExec : exec i s = .next (examineEnding b u) := by
      rw [exec_driveReport_taken _ _ _ hAwaited, takeDriveReport_fault rfl hNew, hEvent, examineRamp_idle]
      · simp [u, note, hPhase]
      · simp [u, note, hPhase]
    have hRecord : u.record b = note .driveFault (s.record b) := by simp [u]
    have hDrive : (u.bay b).drive = (s.bay b).drive.reported ⟨.fault, speed.toInt, torque.toInt⟩ := by simp [u]
    have hTurning : Turning b u ↔ (s.bay b).drive.x ≠ 0 ∨ 5 < speed.toInt.natAbs := by
      rw [Turning, hDrive]
      simp [hWind]
    rw [hExec]
    refine ⟨fun h => congrArg Host.Outcome.next ?_, fun hx hSpeed => ⟨_, rfl, ?_⟩⟩
    · refine examineEnding_turning (examineWindDown_turning ?_) (hTurning.mpr h).1
      exact (hTurning.mpr h).2
    · have hOver : examineEnding b u = _ := examineEnding_aborting (by rw [hRecord]; exact hState) (by rw [hDrive]; simp [hWind])
        (mt hTurning.mp (by omega))
      have hFinished := (finishBay_finishedWith b (abortVerdict (u.record b).cause (u.record b).secondary)
        (windDownOver b u)).of_windDownOver
      rw [hOver]
      simp only [windDownOver, mapDrive_recordOf, hRecord, note, abortVerdict] at hFinished ⊢
      cases hCause : (s.record b).cause <;> simpa [hCause, abortVerdict] using hFinished
  case pressure =>
    rw [exec_pressureLoss_due hWatch hMark hTimer, takeFault_aborting (by simpa using hState)]
    rfl
  case temperature =>
    rw [exec_temperatureLoss_due hWatch hMark hTimer, takeFault_aborting (by simpa using hState)]
    rfl
  case fall =>
    have hRecorded : inputRecorded b l false s = mapRecord b (fun r => { r with inputs := r.inputs.set l false }) s := if_neg hl
    rw [exec_inputFalls hInput, inputFalls_sequenced (by rw [inputRecorded_record, hState]; rfl),
      takeFault_aborting (by rw [inputRecorded_record]; exact hState), hRecorded, recordSecondary, mapRecord_mapRecord]
    cases l <;> first | rfl | exact absurd rfl hl
  case axle =>
    have hRecorded : inputRecorded b .pres false s = raise (.presence b) (mapRecord b (fun r => { r with
      inputs := { r.inputs with pres := false } }) s) := if_pos rfl
    rw [exec_inputFalls (l := .pres) hInput, inputFalls_sequenced (by rw [inputRecorded_record, hState]; rfl),
      takeFault_aborting (by rw [inputRecorded_record]; exact hState), hRecorded]
    rfl
  case withdraw =>
    refine exec_onBay (i := .withdraw .line n) (f := runWithdraw) (r := accept [] s) rfl (List.mem_singleton.mpr rfl) rfl hb ?_
    rw [runWithdraw, hOwner, hState]
    rfl
  case abort =>
    refine exec_onBay (i := .abort .cell n) (f := runAbort) (r := accept [] s) rfl (List.mem_singleton.mpr rfl) rfl hb ?_
    rw [runAbort, hState]
  case line =>
    rw [exec_driveReport_taken _ _ _ hAwaited, takeDriveReport_fault rfl hNew, driveEvent_line (by simpa using hOwner),
      examineRamp_idle (by simp [hPhase]) (by simp [hPhase]), examineEnding_idle (by simpa using hWind)]

/-! ## The end of a wind-down (R67 to R70, R90, R91) -/

/-- FINISHED is told from a state that differs in the bay's cause, secondary fault, pending reductions and noise unit alone. -/
theorem FinishedWith.congr {v : FinalVerdict} {cause secondary : Option Cause} {u t : State} (h : FinishedWith b v cause secondary u t)
    (hRecord : ∃ c y n, u.record b = { s.record b with cause := c, secondary := y, pendingReductions := n })
    (hBlocks : (u.bay b).config = (s.bay b).config ∧ (u.bay b).drive = (s.bay b).drive ∧ (u.bay b).sensor = (s.bay b).sensor ∧
      (u.bay b).leak = (s.bay b).leak)
    (hOthers : ∀ c, c ≠ b → (u.record c).state = (s.record c).state)
    (hShared : u.cell = s.cell ∧ u.store = s.store ∧ u.reports = s.reports ∧ u.manifold = s.manifold ∧ u.ports = s.ports) :
    FinishedWith b v cause secondary s t := by
  obtain ⟨c, y, n, hRecord⟩ := hRecord
  obtain ⟨hConfig, hDrive, hSensor, hLeak⟩ := hBlocks
  obtain ⟨hCell, hStore, hReports, hManifold, hPorts⟩ := hShared
  obtain ⟨record, drive, watch, rest, notice, report, reference, others, tables, lastBay, otherBay, shared⟩ := h
  have hReport : reportOf b v cause secondary u = reportOf b v cause secondary s := by
    simp only [reportOf, hRecord, State.now, hCell]
  have hReturned : ∀ m, ReferenceReturned m u t → ReferenceReturned m s t := fun m hm => by
    unfold ReferenceReturned at hm ⊢
    rwa [hStore] at hm
  rw [hRecord] at record reference others
  rw [hDrive] at drive
  rw [hSensor] at watch
  rw [hConfig, hLeak] at rest
  rw [hReport] at report
  rw [hStore] at others tables
  rw [hCell] at lastBay otherBay
  refine ⟨record, drive, watch, rest, notice, report.congr hReports.symm (by rw [hCell]) rfl rfl (.refl t),
    fun m hm hn => hReturned m (reference m hm hn), others, tables, fun hState hNone => lastBay hState fun c hc => ?_, fun h => ?_,
    shared.1.trans hManifold, fun p => ?_⟩
  · rw [hOthers c hc]; exact hNone c hc
  · refine otherBay (h.imp id ?_)
    rintro ⟨c, hc, hSequenced⟩
    exact ⟨c, hc, by rwa [hOthers c hc]⟩
  · have hPort : u.port p = s.port p := by rw [State.port, hPorts]; rfl
    rw [← hPort]
    exact shared.2 p

theorem windDownDue_iff {t0 : Time} (h : (s.bay b).drive.windDown = .inProgress t0) : windDownDue s b = true ↔ 10000 ≤ elapsed s.now t0 := by
  rw [windDownDue, h]
  exact decide_eq_true_iff

theorem closingVerdict_eq (v : Verdict) : closingVerdict v = match v with
    | .pass => .pass | .marginal => .marginal | .invalid => .incomplete | .fail => .fail := by
  cases v <;> rfl

theorem abortVerdict_eq (cause secondary : Option Cause) : abortVerdict cause secondary =
    if secondary = none ∧ (cause = some .lineWithdraw ∨ cause = some .cellAbort) then .aborted else .fault := by
  cases secondary with
  | none =>
    cases cause with
    | none => rfl
    | some c => cases c <;> rfl
  | some f => cases cause <;> rfl

/-- Settles O28. -/
theorem windDownEndsInFinished : Obligations.WindDownEndsInFinished := by
  refine ⟨fun b echo st speed torque s t0 hAwaited hSeen hPhase hWind hx hSpeed => ?report, fun b s t0 hWind => ⟨fun h => ?early,
    fun h => ?late⟩⟩
  case report =>
    intro rep
    have hExec : exec (.driveReport b echo st speed torque (reportCheck echo st speed torque)) s =
        .next (examineEnding b (mapDrive b (DriveLink.reported rep) s)) := by
      rw [exec_driveReport_taken _ _ _ hAwaited, takeDriveReport_plain hSeen, examineRamp_idle (by simp [hPhase]) (by simp [hPhase])]
    have hStarted : ((mapDrive b (DriveLink.reported rep) s).bay b).drive.windDown ≠ .none := by simp [hWind]
    have hRest : ¬Turning b (mapDrive b (DriveLink.reported rep) s) := by
      rintro ⟨-, h⟩
      rw [mapDrive_bay_same] at h
      simp [rep, hx] at h
      omega
    have hFinished : ∀ v, FinishedWith b v (s.record b).cause (s.record b).secondary (mapDrive b (DriveLink.reported rep) s)
        (finishBay b v (windDownOver b (mapDrive b (DriveLink.reported rep) s))) := fun v => by
      have h := (finishBay_finishedWith b v (windDownOver b (mapDrive b (DriveLink.reported rep) s))).of_windDownOver
      simpa only [windDownOver, mapDrive_recordOf] using h
    rw [hExec]
    refine ⟨fun hState => ⟨_, rfl, ?_⟩, fun hState hPending => ⟨_, rfl, ?_⟩, fun hState hPending => congrArg Host.Outcome.next ?_⟩
    · rw [examineEnding_aborting (by simpa using hState) hStarted hRest, abortVerdict_eq, mapDrive_recordOf]
      exact hFinished _
    · rw [examineEnding_closing (by simpa using hState) (by simpa using hPending) hStarted hRest, closingVerdict_eq, mapDrive_recordOf]
      exact hFinished _
    · rw [examineEnding_closing_pending (by simpa using hState) (by simpa using hPending) hStarted hRest]
      exact mapDrive_mapDrive ..
  case early => exact congrArg Host.Outcome.next (if_neg (by rw [windDownDue_iff hWind]; omega))
  case late =>
    have hExec : exec (.windDownExpiry b) s = .next (expireWindDown b s) :=
      congrArg Host.Outcome.next (if_pos ((windDownDue_iff hWind).mpr h))
    rw [hExec]
    refine ⟨fun hState => ⟨_, rfl, ?_⟩, fun hState => ⟨_, rfl, ?_⟩⟩
    · have hEnd : expireWindDown b s = finishBay b .fault (recordSecondary b .driveStuck s) := by rw [expireWindDown, hState]
      rw [hEnd]
      have hFinished := finishBay_finishedWith b .fault (recordSecondary b .driveStuck s)
      simp only [recordSecondary, mapRecord_recordOf_same] at hFinished
      exact hFinished.congr ⟨_, _, _, mapRecord_recordOf_same ..⟩ (by simp) (fun c hc => by rw [mapRecord_recordOf_other _ _ hc])
        ⟨rfl, rfl, rfl, rfl, rfl⟩
    · have hEnd : expireWindDown b s =
          finishBay b .fault (mapRecord b (fun r => { r with cause := some .driveStuck }) (cancelReductions b s)) := by
        rw [expireWindDown, hState]
      obtain ⟨n, hRecord⟩ := cancelReductions_record b s
      obtain ⟨hConfig, hDrive, hSensor, hLeak, -⟩ := cancelReductions_blocks b s
      rw [hEnd]
      have hFinished := finishBay_finishedWith b .fault (mapRecord b (fun r => { r with cause := some .driveStuck }) (cancelReductions b s))
      simp only [mapRecord_recordOf_same, hRecord] at hFinished
      refine ⟨hFinished.congr ⟨some .driveStuck, (s.record b).secondary, n, by rw [mapRecord_recordOf_same, hRecord]⟩
        (by simp [hConfig, hDrive, hSensor, hLeak]) (fun c hc => ?_) (by simp [cancelReductions]), fun k => ?_⟩
      · rw [mapRecord_recordOf_other _ _ hc]
        exact state_of_frame (cancelReductions_frame b s) c
      · have hBuf : (finishBay b .fault (mapRecord b (fun r => { r with cause := some .driveStuck }) (cancelReductions b s))).buf b k =
            (s.buf b k).cancelled := by
          obtain ⟨-, -, -, hNoise, -⟩ := finishBay_blocks b .fault
            (mapRecord b (fun r => { r with cause := some .driveStuck }) (cancelReductions b s))
          rw [State.buf, hNoise, mapRecord_noise]
          exact cancelReductions_buf b k s
        rw [hBuf]
        unfold ListenBuffer.cancelled
        split <;> simp_all [ListenBuffer.freed]

/-! ## Changes of the inputs (R15, R22) -/

theorem enterEmpty_raised (b : BayId) (s : State) : Raised s (enterEmpty b s) :=
  Raised.raise (.bayState b) (.of_ports rfl)

/-- Settles O39. -/
theorem inputChangesAreRecorded : Obligations.InputChangesAreRecorded := by
  intro b l v s set
  refine ⟨fun h => congrArg Host.Outcome.next (changeInput_same h), fun hChange => ⟨fun h => congrArg Host.Outcome.next ?recorded,
    fun hv hl hState => ?emptied⟩⟩
  case recorded =>
    rw [changeInput_change hChange]
    split
    · rfl
    · next hv =>
      obtain h | ⟨hState, hManual⟩ | ⟨hState, hl⟩ := h
      · exact absurd h hv
      · refine Eq.trans ?_ (show inputRecorded b l v s = _ from rfl)
        have hNot : ¬(l = .grd ∧ (s.record b).owner = .cell) := fun e => hManual.elim (fun h => h e.1) fun h => h e.2
        unfold inputFalls
        simp only [inputRecorded_record]
        obtain h | h | h := hState <;> (rw [h]; exact if_neg hNot)
      · unfold inputFalls
        simp only [inputRecorded_record, hState]
        exact if_neg hl
  case emptied =>
    subst hv hl
    have hRecorded : inputRecorded b .pres false s = raise (.presence b) (mapRecord b (fun r => { r with
      inputs := { r.inputs with pres := false } }) s) := if_pos rfl
    have hEmptied : changeInput b .pres false s = enterEmpty b (inputRecorded b .pres false s) := by
      rw [changeInput_change hChange, if_neg (by decide), inputFalls]
      simp only [inputRecorded_record, hState]
      exact if_pos trivial
    refine ⟨enterEmpty b (inputRecorded b .pres false s), congrArg Host.Outcome.next hEmptied, ?_, ?_, ?_, offered_raise _ _⟩
    · rw [hRecorded]
      simp [enterEmpty, setBayState, BayRecord.cleared, BayRecord.reset, State.record]
    · rw [hRecorded]; rfl
    · rw [hRecorded]
      exact (offered_raise (.presence b) (mapRecord b (fun r => { r with inputs := { r.inputs with pres := false } }) s)).raised
        (enterEmpty_raised b _)

end Sys2Proof.Machine
end

section
/-! PROOF. The faults and commands that take a bay under test into ABORTING (R18, R20 to R22, R76, R77, R83, R106, R148), and the hold
limit (R16, R18). -/

namespace Sys2Proof.Machine

variable {b : BayId} {s t : State}

/-! ## A bay that takes an abort (R20) -/

/-- What bay `b` in RUNNING, HELD or CLOSING holds, in a state that keeps the invariants. -/
structure AbortReady (b : BayId) (s : State) : Prop where
  state : (s.record b).state.abortable
  reducer : ReducerOk s
  one : ¬((s.buf b .a0).state = .acquiring ∧ (s.buf b .a1).state = .acquiring)
  owner : (s.record b).owner = .sequencer
  wind : (s.bay b).drive.windDown ≠ .none ↔ (s.record b).state = .closing

theorem owner_of_sequenced (h : DrivesOk s) (hState : (s.record b).state.sequenced = true) : (s.record b).owner = .sequencer := by
  have hOwner := h.owner b
  cases hs : (s.record b).state <;> rw [hs] at hState hOwner
  case running | held | closing | aborting => exact of_decide_eq_true hOwner
  case empty | loaded | finished | unloading => cases hState

theorem sequenced_of_abortable {st : BayState} (h : st.abortable) : st.sequenced = true := by
  obtain rfl | rfl | rfl := h <;> rfl

theorem AbortReady.of_ok (hReducer : ReducerOk s) (hSteps : StepsOk s) (hDrives : DrivesOk s) (hState : (s.record b).state.abortable) :
    AbortReady b s where
  state := hState
  reducer := hReducer
  one := (hSteps.bay b).one
  owner := owner_of_sequenced hDrives (sequenced_of_abortable hState)
  wind := by
    rw [(hDrives.drive b).winding]
    obtain h | h | h := hState <;> simp [h]

theorem AbortReady.congr (h : AbortReady b s) (hNoise : ∀ c, (t.bay c).noise = (s.bay c).noise) (hReducer : t.reducer = s.reducer)
    (hCount : ∀ c, (t.record c).pendingReductions = (s.record c).pendingReductions) (hState : (t.record b).state = (s.record b).state)
    (hOwner : (t.record b).owner = (s.record b).owner) (hWind : (t.bay b).drive.windDown = (s.bay b).drive.windDown) :
    AbortReady b t where
  state := by rw [hState]; exact h.state
  reducer := h.reducer.of_noise hNoise hReducer hCount
  one := by simp only [buf_congr hNoise]; exact h.one
  owner := hOwner.trans h.owner
  wind := by rw [hWind, hState]; exact h.wind

theorem AbortReady.mapDrive (h : AbortReady b s) {f : DriveLink → DriveLink}
    (hf : (f (s.bay b).drive).windDown = (s.bay b).drive.windDown) : AbortReady b (mapDrive b f s) :=
  h.congr (by simp) rfl (by simp) (by simp) (by simp) (by rw [mapDrive_bay_same]; exact hf)

theorem AbortReady.enters (h : AbortReady b s) (c : Cause) : AbortTaken b c s (enterAborting b c s) :=
  enterAborting_taken c h.reducer h.one h.owner h.wind

theorem AbortReady.taken (h : AbortReady b s) (c : Cause) : AbortTaken b c s (takeFault b c s) := by
  rw [takeFault_abortable h.state]
  exact h.enters c

/-- After an entry into ABORTING the wind-down stands. -/
theorem beginAborting_started (c : Cause) (hWind : (s.record b).state = .closing → (s.bay b).drive.windDown ≠ .none) :
    ((beginAborting b c s).bay b).drive.windDown ≠ .none := by
  obtain ⟨-, hDrive, -⟩ := beginAborting_blocks b c s
  rw [hDrive, (abortDrive_facts _ _ _ _).2.2]
  split
  · next hc => exact hWind hc
  · simp

theorem examineEnding_aborting_again (hState : (s.record b).state = .aborting) (hWind : (s.bay b).drive.windDown ≠ .none) :
    examineEnding b (examineEnding b s) = examineEnding b s := by
  by_cases h : Turning b s
  · simp only [examineEnding_turning (examineWindDown_turning h.2) h.1]
  · rw [examineEnding_aborting hState hWind h]
    obtain ⟨-, hDrive, -⟩ := finishBay_blocks b (abortVerdict (s.record b).cause (s.record b).secondary) (windDownOver b s)
    exact examineEnding_idle (by rw [hDrive]; rfl)

theorem examineEnding_enterAborting (c : Cause) (hWind : (s.record b).state = .closing → (s.bay b).drive.windDown ≠ .none) :
    examineEnding b (enterAborting b c s) = enterAborting b c s := by
  obtain ⟨n, l, hRecord, -⟩ := beginAborting_record b c s
  rw [enterAborting_eq]
  exact examineEnding_aborting_again (by rw [hRecord]) (beginAborting_started c hWind)

/-- An abort taken after a raised notice is one taken before it. -/
theorem AbortTaken.of_raise {c : Cause} {n : Notice} (h : AbortTaken b c (raise n s) t) : AbortTaken b c s t := by
  have hEntered : ∀ {u}, AbortEntered b c (raise n s) u → AbortEntered b c s u := fun {u} e => by
    obtain ⟨record, drive, rest, buffers, reducer, manifold, vent, sealHeads, notice, hCell, hStore, hReports, hPorts⟩ := e
    refine ⟨record, drive, rest, buffers, reducer, manifold, vent, sealHeads, notice, hCell, hStore, hReports, fun p => ?_⟩
    exact Port.unnoticed_eq_iff.mp ((Port.unnoticed_eq_iff.mpr (hPorts p)).trans ((raise_raised n s).same p))
  obtain ⟨hTurning, hRest⟩ := h
  refine ⟨fun e => hEntered (hTurning e), fun e => ?_⟩
  obtain ⟨hNotice, u, hu, hFinished⟩ := hRest e
  exact ⟨hNotice, u, hEntered hu, hFinished⟩

theorem finishBay_raised_from (b : BayId) (v : FinalVerdict) (s : State) : Raised s (finishBay b v s) :=
  (leavePlan_raised b s).trans (finishBay_raised b v s)

theorem settleEnding_raised (b : BayId) (s : State) : Raised s (settleEnding b s) := by
  unfold settleEnding finishAborting finishClosing
  split
  · split
    · exact finishBay_raised_from ..
    · split
      · exact finishBay_raised_from ..
      · exact .refl s
    · exact .refl s
  · exact .refl s

theorem enterAborting_raised (b : BayId) (c : Cause) (s : State) : Raised s (enterAborting b c s) := by
  rw [enterAborting_eq]
  have hDrive : Raised (beginAborting b c s) (mapDrive b DriveLink.examineWindDown (beginAborting b c s)) := .of_ports rfl
  exact (beginAborting_offered b c s).1.trans (hDrive.trans (settleEnding_raised b _))

/-! ## The limits and the losses, due and not due -/

theorem reached_some {now t0 : Time} {limit : Nat} : reached now (some t0) limit = true ↔ limit ≤ elapsed now t0 := decide_eq_true_iff

theorem rampTimeoutDue_iff {o : RampOps} {t0 : Time} (hPhase : (s.record b).phase = .ramping ∨ (s.record b).phase = .tracking)
    (hLatched : (s.record b).latched = some (.ramp o)) (hStart : (s.record b).stepStart = some t0) :
    rampTimeoutDue s b = true ↔ o.timeout ≤ elapsed s.now t0 := by
  have hDue : rampTimeoutDue s b = reached s.now (some t0) o.timeout.toNat := by
    simp only [rampTimeoutDue]
    obtain h | h := hPhase <;> simp only [h, hLatched, hStart]
  rw [hDue, reached_some]
  omega

theorem rampTimeoutDue_idle (h : (s.record b).phase ≠ .ramping) (h' : (s.record b).phase ≠ .tracking) : rampTimeoutDue s b = false := by
  simp only [rampTimeoutDue]
  split
  · next e _ => exact absurd e h
  · next e _ => exact absurd e h'
  · rfl

theorem holdDue_iff {t0 : Time} (hState : (s.record b).state = .held) (hStart : (s.record b).holdStart = some t0) :
    holdDue s b = true ↔ 600000 ≤ elapsed s.now t0 := by
  simp [holdDue, hState, hStart, reached_some]

theorem leakDue_iff {ph : LeakPhase} {limit : Nat} {t0 : Time} (hPhase : (s.bay b).leak.phase = ph)
    (hStart : (s.bay b).leak.phaseStart = some t0) : leakDue s b ph limit = true ↔ limit ≤ elapsed s.now t0 := by
  simp [leakDue, hPhase, hStart, reached_some]

theorem loseChannel_marked {w : LossWatch} (h : w.mark = true) : loseChannel b w s = s := if_pos h

/-! ## FaultsAndAbortsEnterAborting -/

theorem exec_driveLost_idle (h : (s.bay b).drive.enable = false ∨ (s.bay b).drive.missed ≠ 20 ∨ (s.bay b).drive.lostGiven = true) :
    exec (.driveLost b) s = .next s := by
  refine congrArg Host.Outcome.next (if_neg ?_)
  simp only [DriveLink.lostDue, Bool.and_eq_true, beq_iff_eq, Bool.not_eq_true']
  rintro ⟨⟨hEnable, hMissed⟩, hGiven⟩
  obtain h | h | h := h
  · exact Bool.false_ne_true (h.symm.trans hEnable)
  · exact h hMissed
  · exact Bool.false_ne_true (hGiven.symm.trans h)

theorem AbortReady.driveLost (h : AbortReady b s) (hEnable : (s.bay b).drive.enable = true) (hMissed : (s.bay b).drive.missed = 20)
    (hGiven : (s.bay b).drive.lostGiven = false) : ∃ t, exec (.driveLost b) s = .next t ∧
      AbortTaken b .driveLost (Machine.mapDrive b (fun d => { d with lostGiven := true }) s) t := by
  have hMarked : AbortReady b (Machine.mapDrive b (fun d => { d with lostGiven := true }) s) := h.mapDrive rfl
  exact ⟨_, exec_driveLost_due hEnable hMissed hGiven, by rw [driveEvent_sequencer hMarked.owner]; exact hMarked.taken _⟩

theorem AbortReady.driveFault (h : AbortReady b s) {echo : Byte} (speed torque : BitVec 16) (hAwaited : (s.bay b).drive.awaited = some echo)
    (hNew : (s.bay b).drive.faultSeen = false) :
    ∃ t, exec (.driveReport b echo .fault speed torque (reportCheck echo .fault speed torque)) s = .next t ∧
      AbortTaken b .driveFault (Machine.mapDrive b (DriveLink.reported ⟨.fault, speed.toInt, torque.toInt⟩) s) t := by
  have hReported : AbortReady b (Machine.mapDrive b (DriveLink.reported ⟨.fault, speed.toInt, torque.toInt⟩) s) := h.mapDrive rfl
  have hPhase := enterAborting_phase (b := b) .driveFault (Machine.mapDrive b (DriveLink.reported ⟨.fault, speed.toInt, torque.toInt⟩) s)
  refine ⟨_, exec_driveReport_taken _ _ _ hAwaited, ?_⟩
  rw [takeDriveReport_fault rfl hNew, driveEvent_sequencer hReported.owner, takeFault_abortable hReported.state,
    examineRamp_idle (by simp [hPhase]) (by simp [hPhase]), examineEnding_enterAborting _ fun hc => hReported.wind.mpr hc]
  exact hReported.enters _

/-- The fall of an input, with the notice of PRES. -/
theorem AbortReady.inputFalls (h : AbortReady b s) {l : InputLine} (hInput : (s.record b).inputs.get l = true) :
    ∃ t, exec (.inputLineChange b l false) s = .next t ∧ (l = .pres → Offered (.presence b) t) ∧
      AbortTaken b (fallFault l) (mapRecord b (fun r => { r with inputs := r.inputs.set l false }) s) t := by
  have hSet : AbortReady b (mapRecord b (fun r => { r with inputs := r.inputs.set l false }) s) :=
    h.congr (by simp) rfl (fun c => by rw [mapRecord_recordOf]; split <;> simp_all) (by simp) (by simp) (by simp)
  have hExec : exec (.inputLineChange b l false) s = .next (takeFault b (fallFault l) (inputRecorded b l false s)) := by
    rw [exec_inputFalls hInput, inputFalls_sequenced]
    rw [inputRecorded_record]
    exact sequenced_of_abortable h.state
  refine ⟨_, hExec, ?_⟩
  by_cases hl : l = .pres
  · have hRecorded : inputRecorded b l false s =
        raise (.presence b) (mapRecord b (fun r => { r with inputs := r.inputs.set l false }) s) := if_pos hl
    have hRaised : AbortReady b (raise (.presence b) (mapRecord b (fun r => { r with inputs := r.inputs.set l false }) s)) :=
      hSet.congr (fun _ => rfl) rfl (fun _ => rfl) rfl rfl rfl
    rw [hRecorded]
    refine ⟨fun _ => ?_, (hRaised.taken _).of_raise⟩
    rw [takeFault_abortable hRaised.state]
    exact (offered_raise _ _).raised (enterAborting_raised ..)
  · have hRecorded : inputRecorded b l false s = mapRecord b (fun r => { r with inputs := r.inputs.set l false }) s := if_neg hl
    rw [hRecorded]
    exact ⟨fun e => absurd e hl, hSet.taken _⟩

theorem AbortReady.sensorLost (h : AbortReady b s) (f : SensorLink → SensorLink) : AbortTaken b .sensorLost (mapSensor b f s)
    (takeFault b .sensorLost (mapSensor b f s)) :=
  (h.congr (by simp) rfl (by simp) (by simp) (by simp) (by simp) : AbortReady b (mapSensor b f s)).taken _

theorem exec_withdraw_accepted {n : Nat} (hn : bayOfCode n = some b) (h : AbortReady b s) : exec (.withdraw .line n) s =
    .next (answered .line (.withdraw .line n) .ok [] (enterAborting b .lineWithdraw s)) := by
  refine exec_onBay (i := .withdraw .line n) (f := runWithdraw) (r := accept [] (enterAborting b .lineWithdraw s)) rfl
    (List.mem_singleton.mpr rfl) rfl hn ?_
  rw [runWithdraw, h.owner]
  obtain hs | hs | hs := h.state <;> rw [hs] <;> rfl

theorem exec_abort_accepted {n : Nat} (hn : bayOfCode n = some b) (h : (s.record b).state.abortable) : exec (.abort .cell n) s =
    .next (answered .cell (.abort .cell n) .ok [] (enterAborting b .cellAbort s)) := by
  refine exec_onBay (i := .abort .cell n) (f := runAbort) (r := accept [] (enterAborting b .cellAbort s)) rfl
    (List.mem_singleton.mpr rfl) rfl hn ?_
  rw [runAbort]
  obtain hs | hs | hs := h <;> rw [hs]

theorem exec_abort_refused {n : Nat} (hn : bayOfCode n = some b) (h : ¬(s.record b).state.abortable)
    (hNot : (s.record b).state ≠ .aborting) :
    exec (.abort .cell n) s = .next (answered .cell (.abort .cell n) .wrongState [] s) := by
  refine exec_onBay (i := .abort .cell n) (f := runAbort) (r := refuse .wrongState s) rfl (List.mem_singleton.mpr rfl) rfl hn ?_
  rw [runAbort]
  split
  · next e => exact absurd (.inl e) h
  · next e => exact absurd (.inr (.inl e)) h
  · next e => exact absurd (.inr (.inr e)) h
  · next e => exact absurd e hNot
  · rfl

/-- Settles O26. -/
theorem faultsAndAbortsEnterAborting : Obligations.FaultsAndAbortsEnterAborting := by
  refine ⟨fun b s hReducer hSteps hDrives hState => ?_, fun b s => ⟨exec_driveLost_idle, fun h h' => ?_, fun o t0 hLatched hStart h => ?_,
    fun h => ?_, fun w hWatch => ⟨fun h => ?_, fun h => ?_⟩, fun h => ?_, fun t0 hStart h => ?_, fun n hn h hNot =>
      exec_abort_refused hn h hNot⟩⟩
  · have hReady := AbortReady.of_ok hReducer hSteps hDrives hState
    have hEnable := ((hDrives.drive b).sequencer hReady.owner).1
    refine ⟨hReady.driveLost hEnable, fun echo speed torque => hReady.driveFault speed torque,
      fun o t0 hPhase hLatched hStart hDue => ⟨_, ?_, hReady.taken _⟩, fun t0 hHeld hStart hDue => ⟨_, ?_, hReady.taken _⟩,
      fun w hWatch hMark => ?_, fun t0 hPhase hStart hDue => ⟨_, ?_, hReady.taken _⟩, fun l hInput => ?_,
      fun n hn => ⟨⟨_, exec_withdraw_accepted hn hReady, hReady.enters _⟩, ⟨_, exec_abort_accepted hn hState, hReady.enters _⟩⟩⟩
    · exact congrArg Host.Outcome.next (if_pos ((rampTimeoutDue_iff hPhase hLatched hStart).mpr hDue))
    · exact congrArg Host.Outcome.next (if_pos ((holdDue_iff hHeld hStart).mpr hDue))
    · exact ⟨fun hTimer => ⟨_, exec_pressureLoss_due hWatch hMark hTimer, hReady.sensorLost _⟩,
        fun hTimer => ⟨_, exec_temperatureLoss_due hWatch hMark hTimer, hReady.sensorLost _⟩⟩
    · exact congrArg Host.Outcome.next (if_pos ((leakDue_iff hPhase hStart).mpr hDue))
    · cases l <;> exact hReady.inputFalls hInput
  · exact congrArg Host.Outcome.next (if_neg (by simp [rampTimeoutDue_idle h h']))
  · refine congrArg Host.Outcome.next (if_neg fun hDue => ?_)
    by_cases hPhase : (s.record b).phase = .ramping ∨ (s.record b).phase = .tracking
    · have := (rampTimeoutDue_iff hPhase hLatched hStart).mp hDue
      omega
    · rw [rampTimeoutDue_idle (fun e => hPhase (.inl e)) fun e => hPhase (.inr e)] at hDue
      cases hDue
  · exact ⟨congrArg Host.Outcome.next (by simp only [h]), congrArg Host.Outcome.next (by simp only [h])⟩
  · refine congrArg Host.Outcome.next ?_
    simp only [hWatch]
    obtain h | h := h
    · rw [loseChannel_marked h, ite_self]
    · exact if_neg h
  · refine congrArg Host.Outcome.next ?_
    simp only [hWatch]
    obtain h | h := h
    · rw [loseChannel_marked h, ite_self]
    · exact if_neg h
  · exact congrArg Host.Outcome.next (if_neg (by simp [leakDue, h]))
  · refine congrArg Host.Outcome.next (if_neg ?_)
    simp only [leakDue, hStart, Bool.and_eq_true, reached_some]
    omega

/-! ## The hold limit (R16, R18) -/

/-- Whatever the drive shows, an entry into ABORTING leaves its cause, in ABORTING or in FINISHED. -/
theorem enterAborting_cause (c : Cause) (hWind : (s.record b).state ≠ .closing) : ((enterAborting b c s).record b).cause = some c ∧
    (((enterAborting b c s).record b).state = .aborting ∨ ((enterAborting b c s).record b).state = .finished) := by
  obtain ⟨n, l, hRecord, -⟩ := beginAborting_record b c s
  rw [enterAborting_eq]
  by_cases h : Turning b (beginAborting b c s)
  · rw [examineEnding_turning (examineWindDown_turning h.2) h.1, hRecord]
    exact ⟨rfl, .inl rfl⟩
  · rw [examineEnding_aborting (by rw [hRecord]) (beginAborting_started c fun e => absurd e hWind) h, finishBay_record_same]
    simp [windDownOver, hRecord]

/-- Bay `b` in HELD holds the time it was held at. -/
def HeldNow (b : BayId) (s : State) : Prop := (s.record b).state = .held → (s.record b).holdStart = some s.now

theorem HeldNow.of_not (h : (s.record b).state ≠ .held) : HeldNow b s := fun e => absurd e h

theorem HeldNow.congr (h : HeldNow b s) (hState : (t.record b).state = (s.record b).state)
    (hHold : (t.record b).holdStart = (s.record b).holdStart) (hTime : t.cell.time = s.cell.time) : HeldNow b t := by
  rw [HeldNow, hState, hHold, State.now, hTime]
  exact h

theorem cell_of_rest (h : t.rest = s.rest) : t.cell = s.cell := (State.rest_eq_iff.mp h).1

theorem beginPlan_cell (b : BayId) (v : VariantEntry) (s : State) : (beginPlan b v s).cell = s.cell :=
  (cell_of_rest (refreshLines_rest b _)).trans rfl

theorem beginClosing_cell (b : BayId) (s : State) : (beginClosing b s).cell = s.cell := (cell_of_rest (refreshLines_rest b _)).trans rfl

theorem Move.time {g d : Prop} {b : BayId} (h : Move b g d s t) : t.cell.time = s.cell.time := by
  cases h with
  | still h => exact congrArg (·.cell.time) h
  | divert cause => rw [divertBay_shared]
  | finish v =>
    rw [finishBay_eq, cellStopCheck_cell, handReport_cell, leavePlan_cell]
    split <;> rfl
  | post => rw [(postResult_shared ..).1]
  | closing => rw [beginClosing_cell]
  | aborting cause => rw [(beginAborting_shared ..).1]
  | start v => rw [beginPlan_cell]
  | _ => rfl

theorem HeldNow.of_move {g d : Prop} {c : BayId} (hs : HeldNow b s) (h : Move c g d s t) : HeldNow b t := by
  by_cases hc : b = c
  · subst hc
    have hTime := h.time
    cases h with
    | still h =>
      obtain ⟨hState, -, -, -, hHold, -⟩ := BayRecord.of_core (frame_own h).2.1
      exact hs.congr hState hHold hTime
    | drive => exact hs.congr (by simp) (by simp) hTime
    | config => exact hs.congr (by rw [config_record]) (by rw [config_record]) hTime
    | manual | unmanned => exact hs.congr (by simp) (by simp) hTime
    | load | release | clear | resume => exact .of_not (by simp [loadAxle, enterEmpty, beginResume])
    | held => exact fun _ => by simp [enterHeld]
    | start v => exact .of_not (by rw [beginPlan_state]; simp)
    | divert => exact .of_not (by rw [divertBay_record_same]; simp)
    | post res =>
      refine hs.congr (postResult_state ..) ?_ hTime
      unfold postResult
      split <;> simp
    | closing =>
      obtain ⟨l, hRecord⟩ := beginClosing_record_same b s
      exact .of_not (by rw [hRecord]; simp)
    | aborting cause =>
      obtain ⟨n, l, hRecord, -⟩ := beginAborting_record b cause s
      exact .of_not (by rw [hRecord]; simp)
    | finish v => exact .of_not (by rw [finishBay_record_same]; simp)
  · obtain ⟨hState, -, -, -, hHold, -⟩ := BayRecord.of_core (h.core hc)
    exact hs.congr hState hHold h.time

theorem Effect.state_held {e : Prop} (h : Effect e s t) (hNot : (s.record b).state ≠ .held) : (t.record b).state ≠ .held := by
  cases h with
  | reset => rw [powerOn_record]; simp [BayRecord.reset]
  | take =>
    rw [takeHead_record]
    split <;> exact hNot
  | _ => exact hNot

/-- Settles O29. -/
theorem holdLimitRunsFromHoldStart : Obligations.HoldLimitRunsFromHoldStart := by
  refine ⟨fun b s t0 hState hStart => ⟨fun h => ?_, fun h => ⟨takeFault b .holdExpired s, ?_, ?_⟩⟩, fun b s h => ?_,
    fun i b s t hExec hNot hHeld => ?_⟩
  · exact congrArg Host.Outcome.next (if_neg (by rw [holdDue_iff hState hStart]; omega))
  · exact congrArg Host.Outcome.next (if_pos ((holdDue_iff hState hStart).mpr h))
  · rw [takeFault_abortable (.inr (.inl hState))]
    exact enterAborting_cause _ (by simp [hState])
  · exact congrArg Host.Outcome.next (if_neg (by simp [holdDue, h]))
  · have hKept : Kept (HeldNow b) s := ⟨fun _ _ _ h hu => hu.of_move h, fun _ h => .of_not (h.state_held hNot),
      fun u v hCell _ hBays hu => hu.congr (by rw [State.record, State.bay, hBays]; rfl) (by rw [State.record, State.bay, hBays]; rfl)
        (by rw [hCell])⟩
    exact hKept.exec (fun _ _ _ hu => hu.congr (by simp) (by simp) rfl) hExec hHeld

end Sys2Proof.Machine
end

section
/-! PROOF. How the Leak Unit, Noise Acquisition, the dwell and the Manifold Arbiter keep to the step phases: what each shared operation
of a step keeps (R54, R108, R109, R130 to R150). -/

namespace Sys2Proof.Machine

variable {b : BayId} {s t : State}

/-! ## The work of a bay's step -/

/-- What the blocks of a bay show of the work of its step: step phase, state, phase of the Leak Unit, whether each buffer is ACQUIRING,
whether the row is IDLE and whether no dwell runs. -/
def Bay.work (x : Bay) : StepPhase × BayState × LeakPhase × (Bool × Bool × Bool) × Bool :=
  (x.record.phase, x.record.state, x.leak.phase,
    (decide (x.noise.a0.state = .acquiring), decide (x.noise.a1.state = .acquiring), decide (x.noise.row = .idle)),
    decide (x.drive.dwell = none))

theorem Bay.work_eq_iff {x y : Bay} : y.work = x.work ↔ y.record.phase = x.record.phase ∧ y.record.state = x.record.state ∧
    y.leak.phase = x.leak.phase ∧ ((y.noise.a0.state = .acquiring ↔ x.noise.a0.state = .acquiring) ∧
    (y.noise.a1.state = .acquiring ↔ x.noise.a1.state = .acquiring) ∧ (y.noise.row = .idle ↔ x.noise.row = .idle)) ∧
    (y.drive.dwell = none ↔ x.drive.dwell = none) := by
  simp only [Bay.work, Prod.mk.injEq, decide_eq_decide]

theorem Bay.StepOk.congr {x y : Bay} (h : x.StepOk) (hWork : y.work = x.work) : y.StepOk := by
  obtain ⟨hPhase, hState, hLeak, ⟨h0, h1, hRow⟩, hDwell⟩ := Bay.work_eq_iff.mp hWork
  exact {
    running := by rw [hPhase, hState]; exact h.running
    leak := by rw [hLeak, hPhase]; exact h.leak
    listening := by rw [hPhase, ← h.listening, NoiseUnit.acquiring, NoiseUnit.acquiring, h0, h1]
    one := by rw [h0, h1]; exact h.one
    row := by rw [hRow, hPhase]; exact h.row
    dwell := by rw [Ne, hDwell, hPhase]; exact h.dwell }

/-! ## The other bays and the manifold -/

/-- Every bay but `b` is in order, and so is what the manifold shows of them. -/
structure Others (b : BayId) (s : State) : Prop where
  bay : ∀ c, c ≠ b → (s.bay c).StepOk
  queued : ∀ c, c ≠ b → (c ∈ s.manifold.queue ↔ (s.bay c).leak.phase = .fillWait)
  once : s.manifold.queue.Nodup
  holder : ∀ c, c ≠ b → (s.manifold.granted = some c ↔ (s.bay c).leak.phase = .fill)
  busy : s.manifold.queue ≠ [] → s.manifold.granted ≠ none

theorem StepsOk.others (h : StepsOk s) (b : BayId) : Others b s :=
  ⟨fun c _ => h.bay c, fun c _ => h.queued c, h.once, fun c _ => h.holder c, h.busy⟩

/-- With bay `b` in order too, every step phase is. -/
theorem Others.stepsOk (h : Others b s) (hBay : (s.bay b).StepOk) (hQueued : b ∈ s.manifold.queue ↔ (s.bay b).leak.phase = .fillWait)
    (hHolder : s.manifold.granted = some b ↔ (s.bay b).leak.phase = .fill) : StepsOk s where
  bay c := if hc : c = b then hc ▸ hBay else h.bay c hc
  queued c := if hc : c = b then hc ▸ hQueued else h.queued c hc
  once := h.once
  holder c := if hc : c = b then hc ▸ hHolder else h.holder c hc
  busy := h.busy

theorem Others.congr (h : Others b s) (hBay : ∀ c, c ≠ b → (t.bay c).work = (s.bay c).work) (hManifold : t.manifold = s.manifold) :
    Others b t where
  bay c hc := (h.bay c hc).congr (hBay c hc)
  queued c hc := by rw [hManifold, (Bay.work_eq_iff.mp (hBay c hc)).2.2.1]; exact h.queued c hc
  once := by rw [hManifold]; exact h.once
  holder c hc := by rw [hManifold, (Bay.work_eq_iff.mp (hBay c hc)).2.2.1]; exact h.holder c hc
  busy := by rw [hManifold]; exact h.busy

theorem StepsOk.congr (h : StepsOk s) (hBay : ∀ c, (t.bay c).work = (s.bay c).work) (hManifold : t.manifold = s.manifold) : StepsOk t where
  bay c := (h.bay c).congr (hBay c)
  queued c := by rw [hManifold, (Bay.work_eq_iff.mp (hBay c)).2.2.1]; exact h.queued c
  once := by rw [hManifold]; exact h.once
  holder c := by rw [hManifold, (Bay.work_eq_iff.mp (hBay c)).2.2.1]; exact h.holder c
  busy := by rw [hManifold]; exact h.busy

/-- A change of bay `b` alone that its work does not show. -/
theorem StepsOk.of_bay (h : StepsOk s) (hOther : ∀ c, c ≠ b → t.bay c = s.bay c) (hSame : (t.bay b).work = (s.bay b).work)
    (hManifold : t.manifold = s.manifold) : StepsOk t :=
  h.congr (fun c => if hc : c = b then hc ▸ hSame else congrArg Bay.work (hOther c hc)) hManifold

theorem StepsOk.mapRecord (h : StepsOk s) {f : BayRecord → BayRecord} (hPhase : (f (s.record b)).phase = (s.record b).phase)
    (hState : (f (s.record b)).state = (s.record b).state) : StepsOk (mapRecord b f s) := by
  refine h.of_bay (b := b) (fun c hc => mapRecord_bay_other _ _ hc) ?_ rfl
  rw [mapRecord_bay_same, Bay.work_eq_iff]
  exact ⟨hPhase, hState, rfl, ⟨Iff.rfl, Iff.rfl, Iff.rfl⟩, Iff.rfl⟩

theorem StepsOk.mapDrive (h : StepsOk s) {f : DriveLink → DriveLink} (hDwell : (f (s.bay b).drive).dwell = none ↔ (s.bay b).drive.dwell = none) :
    StepsOk (mapDrive b f s) := by
  refine h.of_bay (b := b) (fun c hc => mapDrive_bay_other _ _ hc) ?_ rfl
  rw [mapDrive_bay_same, Bay.work_eq_iff]
  exact ⟨rfl, rfl, rfl, ⟨Iff.rfl, Iff.rfl, Iff.rfl⟩, hDwell⟩

theorem StepsOk.mapSensor (h : StepsOk s) (f : SensorLink → SensorLink) : StepsOk (mapSensor b f s) := by
  refine h.of_bay (b := b) (fun c hc => mapSensor_bay_other _ _ hc) ?_ rfl
  rw [mapSensor_bay_same]
  rfl

theorem StepsOk.mapLeak (h : StepsOk s) {f : LeakUnit → LeakUnit} (hPhase : (f (s.bay b).leak).phase = (s.bay b).leak.phase) :
    StepsOk (mapLeak b f s) := by
  refine h.of_bay (b := b) (fun c hc => mapLeak_bay_other _ _ hc) ?_ rfl
  rw [mapLeak_bay_same, Bay.work_eq_iff]
  exact ⟨rfl, rfl, hPhase, ⟨Iff.rfl, Iff.rfl, Iff.rfl⟩, Iff.rfl⟩

theorem StepsOk.of_shared (h : StepsOk s) (hBays : t.bays = s.bays) (hManifold : t.manifold = s.manifold) : StepsOk t :=
  h.congr (fun c => by rw [State.bay, hBays]; rfl) hManifold

/-- The work of bay `b` after a posting. -/
theorem postResult_bay_same (b : BayId) (res : Result) (s : State) : ∃ rs v e, (postResult b res s).bay b = { s.bay b with
    record := { s.record b with results := rs, verdict := v, endRequest := e } } := by
  unfold postResult
  split
  · exact ⟨_, _, _, mapRecord_bay_same ..⟩
  · exact ⟨_, _, _, rfl⟩

@[simp] theorem postResult_manifold (b : BayId) (res : Result) (s : State) : (postResult b res s).manifold = s.manifold := by
  unfold postResult; split <;> rfl

theorem StepsOk.postResult (h : StepsOk s) (res : Result) : StepsOk (postResult b res s) := by
  obtain ⟨rs, v, e, hBay⟩ := postResult_bay_same b res s
  exact h.of_bay (b := b) (fun c hc => postResult_bay_other _ _ hc) (by rw [hBay]; rfl) (postResult_manifold ..)

/-! ## A bay whose step is at no work of the noise check, the dwell and the manifold -/

/-- Bay `b` has no acquisition and no dwell, and the manifold does not know it; the others are in order. -/
structure Still (b : BayId) (s : State) : Prop where
  others : Others b s
  noise : ¬(s.bay b).noise.acquiring
  row : (s.bay b).noise.row = .idle
  dwell : (s.bay b).drive.dwell = none
  unqueued : b ∉ s.manifold.queue
  ungranted : s.manifold.granted ≠ some b

theorem Still.of_bay (h : Still b s) (hOther : ∀ c, c ≠ b → t.bay c = s.bay c) (hNoise : (t.bay b).noise = (s.bay b).noise)
    (hDwell : (t.bay b).drive.dwell = (s.bay b).drive.dwell) (hManifold : t.manifold = s.manifold) : Still b t where
  others := h.others.congr (fun c hc => by rw [hOther c hc]) hManifold
  noise := by rw [hNoise]; exact h.noise
  row := by rw [hNoise]; exact h.row
  dwell := hDwell.trans h.dwell
  unqueued := by rw [hManifold]; exact h.unqueued
  ungranted := by rw [hManifold]; exact h.ungranted

theorem Still.mapRecord (h : Still b s) (f : BayRecord → BayRecord) : Still b (mapRecord b f s) :=
  h.of_bay (fun _ hc => mapRecord_bay_other _ _ hc) (by simp) (by simp) rfl

theorem Still.mapLeak (h : Still b s) (f : LeakUnit → LeakUnit) : Still b (mapLeak b f s) :=
  h.of_bay (fun _ hc => mapLeak_bay_other _ _ hc) (by simp) (by simp) rfl

theorem Still.mapDrive (h : Still b s) {f : DriveLink → DriveLink} (hDwell : (f (s.bay b).drive).dwell = (s.bay b).drive.dwell) :
    Still b (mapDrive b f s) :=
  h.of_bay (fun _ hc => mapDrive_bay_other _ _ hc) (by simp) (by simpa using hDwell) rfl

theorem Still.mapSensor (h : Still b s) (f : SensorLink → SensorLink) : Still b (mapSensor b f s) :=
  h.of_bay (fun _ hc => mapSensor_bay_other _ _ hc) (by simp) (by simp) rfl

theorem Still.refreshLines (h : Still b s) : Still b (refreshLines b s) :=
  h.of_bay (fun _ hc => refreshLines_bay_other _ hc) (by simp) (by simp) (by simp)

theorem Still.of_shared (h : Still b s) (hBays : t.bays = s.bays) (hManifold : t.manifold = s.manifold) : Still b t :=
  h.of_bay (fun c _ => by rw [State.bay, hBays]; rfl) (by rw [State.bay, hBays]; rfl) (by rw [State.bay, hBays]; rfl) hManifold

theorem Still.postResult (h : Still b s) (res : Result) : Still b (postResult b res s) := by
  obtain ⟨rs, v, e, hBay⟩ := postResult_bay_same b res s
  exact h.of_bay (fun _ hc => postResult_bay_other _ _ hc) (by rw [hBay]) (by rw [hBay]) (postResult_manifold ..)

theorem Still.enterLeakPhase (h : Still b s) (ph : LeakPhase) (start : Option Time) : Still b (enterLeakPhase b ph start s) :=
  h.of_bay (fun _ hc => enterLeakPhase_bay_other _ _ _ hc) (by simp) (by simp) (by simp)

/-- A step in order that neither listens nor dwells and neither waits for the manifold nor holds it is still. -/
theorem StepsOk.still (h : StepsOk s) (hListening : (s.record b).phase ≠ .listening) (hDwelling : (s.record b).phase ≠ .dwelling)
    (hWait : (s.bay b).leak.phase ≠ .fillWait) (hFill : (s.bay b).leak.phase ≠ .fill) : Still b s where
  others := h.others b
  noise := mt (h.bay b).listening.mp hListening
  row := (h.bay b).row.mpr hListening
  dwell := not_not.mp (mt (h.bay b).dwell hDwelling)
  unqueued := mt (h.queued b).mp hWait
  ungranted := mt (h.holder b).mp hFill

/-- The phase that the Leak Unit shows is the step's. -/
theorem Bay.StepOk.phase_of_leak {x : Bay} (h : x.StepOk) (hLeak : x.leak.phase ≠ .idle) : x.record.phase = x.leak.phase.step := by
  have hStep := h.leak
  split at hStep
  · exact hStep.symm
  · cases hPhase : x.leak.phase <;> rw [hPhase] at hLeak hStep <;> first | exact absurd rfl hLeak | cases hStep

/-- A LEAK step that is not at the manifold is still. -/
theorem StepsOk.still_of_leak (h : StepsOk s) {ph : LeakPhase} (hLeak : (s.bay b).leak.phase = ph)
    (hPhase : ph = .ambient ∨ ph = .settle ∨ ph = .measure ∨ ph = .vent) : Still b s := by
  have hStep := (h.bay b).phase_of_leak (by rw [hLeak]; rintro rfl; simp at hPhase)
  rw [hLeak] at hStep
  have hRecord : (s.record b).phase = ph.step := hStep
  obtain rfl | rfl | rfl | rfl := hPhase <;>
    exact h.still (by rw [hRecord]; simp [LeakPhase.step]) (by rw [hRecord]; simp [LeakPhase.step]) (by simp [hLeak]) (by simp [hLeak])

/-- A still bay with an IDLE Leak Unit: its step is at no work. -/
structure Resting (b : BayId) (s : State) : Prop extends Still b s where
  leak : (s.bay b).leak.phase = .idle

theorem Resting.stepsOk (h : Resting b s) (hRunning : (s.record b).phase ≠ .none → (s.record b).state = .running)
    (hPhase : (s.record b).phase ≠ .listening) (hLeak : (s.record b).phase.ofLeak = false) : StepsOk s := by
  refine h.others.stepsOk ?_ (iff_of_false h.unqueued (by simp [h.leak])) (iff_of_false h.ungranted (by simp [h.leak]))
  exact {
    running := hRunning
    leak := by rw [h.leak]; exact (if_neg (by rw [show (s.bay b).record.phase.ofLeak = false from hLeak]; decide)).symm
    listening := iff_of_false h.noise hPhase
    one := fun e => h.noise (.inl e.1)
    row := iff_of_true h.row hPhase
    dwell := fun e => absurd h.dwell e }

theorem Resting.stepsOk_none (h : Resting b s) (hPhase : (s.record b).phase = .none) : StepsOk s :=
  h.stepsOk (fun e => absurd hPhase e) (by simp [hPhase]) (by simp [hPhase, StepPhase.ofLeak])

/-- A step that neither listens nor dwells nor runs a LEAK step rests. -/
theorem StepsOk.resting (h : StepsOk s) (hListening : (s.record b).phase ≠ .listening) (hDwelling : (s.record b).phase ≠ .dwelling)
    (hLeak : (s.record b).phase.ofLeak = false) : Resting b s := by
  have hIdle : (s.bay b).leak.phase = .idle := by
    have hStep := (h.bay b).leak
    rw [show (s.bay b).record.phase.ofLeak = false from hLeak] at hStep
    cases hPhase : (s.bay b).leak.phase <;> rw [hPhase] at hStep <;> first | rfl | cases hStep
  exact ⟨h.still hListening hDwelling (by simp [hIdle]) (by simp [hIdle]), hIdle⟩

theorem StepsOk.resting_none (h : StepsOk s) (hPhase : (s.record b).phase = .none) : Resting b s :=
  h.resting (by simp [hPhase]) (by simp [hPhase]) (by simp [hPhase, StepPhase.ofLeak])

/-- Outside RUNNING a bay rests. -/
theorem StepsOk.phase_none (h : StepsOk s) (hState : (s.record b).state ≠ .running) : (s.record b).phase = .none :=
  not_not.mp (mt (h.bay b).running hState)

theorem StepsOk.resting_out (h : StepsOk s) (hState : (s.record b).state ≠ .running) : Resting b s := h.resting_none (h.phase_none hState)

theorem Resting.mapRecord (h : Resting b s) (f : BayRecord → BayRecord) : Resting b (mapRecord b f s) :=
  ⟨h.toStill.mapRecord f, by simpa using h.leak⟩

theorem Resting.mapDrive (h : Resting b s) {f : DriveLink → DriveLink} (hDwell : (f (s.bay b).drive).dwell = (s.bay b).drive.dwell) :
    Resting b (mapDrive b f s) :=
  ⟨h.toStill.mapDrive hDwell, by simpa using h.leak⟩

theorem Resting.mapSensor (h : Resting b s) (f : SensorLink → SensorLink) : Resting b (mapSensor b f s) :=
  ⟨h.toStill.mapSensor f, by simpa using h.leak⟩

theorem Resting.refreshLines (h : Resting b s) : Resting b (refreshLines b s) := ⟨h.toStill.refreshLines, by simpa using h.leak⟩

theorem Resting.of_shared (h : Resting b s) (hBays : t.bays = s.bays) (hManifold : t.manifold = s.manifold) : Resting b t :=
  ⟨h.toStill.of_shared hBays hManifold, by rw [State.bay, hBays]; exact h.leak⟩

theorem Resting.postResult (h : Resting b s) (res : Result) : Resting b (postResult b res s) := by
  obtain ⟨rs, v, e, hBay⟩ := postResult_bay_same b res s
  exact ⟨h.toStill.postResult res, by rw [hBay]; exact h.leak⟩

/-! ## The phases of a LEAK step -/

/-- A still bay enters a phase that does not concern the manifold. -/
theorem Still.enter (h : Still b s) (hState : (s.record b).state = .running) (start : Option Time) {ph : LeakPhase}
    (hPhase : ph = .ambient ∨ ph = .settle ∨ ph = .measure ∨ ph = .vent) : StepsOk (Machine.enterLeakPhase b ph start s) := by
  have hStill := h.enterLeakPhase ph start
  have hBay := enterLeakPhase_bay_same b ph start s
  have hLeak : ((Machine.enterLeakPhase b ph start s).bay b).leak.phase = ph := by rw [hBay]
  have hRecord : ((Machine.enterLeakPhase b ph start s).bay b).record.phase = ph.step := by rw [hBay]
  have hFacts : ph.step.ofLeak = true ∧ ph.step ≠ .listening ∧ ph ≠ .fillWait ∧ ph ≠ .fill := by
    obtain rfl | rfl | rfl | rfl := hPhase <;> simp [LeakPhase.step, StepPhase.ofLeak]
  obtain ⟨hOfLeak, hListening, hWait, hFill⟩ := hFacts
  refine hStill.others.stepsOk ?_ (iff_of_false hStill.unqueued (by rw [hLeak]; exact hWait))
    (iff_of_false hStill.ungranted (by rw [hLeak]; exact hFill))
  exact {
    running := fun _ => by rw [hBay]; exact hState
    leak := by rw [hRecord, hLeak, if_pos hOfLeak]
    listening := iff_of_false hStill.noise (by rw [hRecord]; exact hListening)
    one := fun e => hStill.noise (.inl e.1)
    row := iff_of_true hStill.row (by rw [hRecord]; exact hListening)
    dwell := fun e => absurd hStill.dwell e }

theorem enterLeakPhase_state (b : BayId) (ph : LeakPhase) (start : Option Time) (s : State) :
    ((enterLeakPhase b ph start s).record b).state = (s.record b).state := by
  rw [State.record, enterLeakPhase_bay_same]

theorem Still.postLeak (h : Still b s) (v : Verdict) (cause : Option Cause) (x y : Int) : Still b (postLeak b v cause x y s) := by
  unfold Machine.postLeak
  split
  · exact h
  · exact (h.postResult _).mapLeak _

theorem postLeak_state (b : BayId) (v : Verdict) (cause : Option Cause) (x y : Int) (s : State) :
    ((postLeak b v cause x y s).record b).state = (s.record b).state := by
  unfold postLeak
  split
  · rfl
  · rw [mapLeak_recordOf, postResult_state]

theorem Still.vent (h : Still b s) (hState : (s.record b).state = .running) : StepsOk (enterVent b s) :=
  h.enter hState _ (.inr (.inr (.inr rfl)))

/-- A still bay vents after its posting. -/
theorem Still.postVent (h : Still b s) (hState : (s.record b).state = .running) (v : Verdict) (cause : Option Cause) (x y : Int) :
    StepsOk (enterVent b (Machine.postLeak b v cause x y s)) :=
  (h.postLeak v cause x y).vent ((postLeak_state ..).trans hState)

theorem Still.measure (h : Still b s) (hState : (s.record b).state = .running) : StepsOk (enterMeasure b s) := by
  have hEntered := h.enter hState (some s.now) (.inr (.inr (.inl rfl)))
  simp only [enterMeasure]
  split
  · exact hEntered.mapLeak rfl
  · exact (h.enterLeakPhase _ _).postVent ((enterLeakPhase_state ..).trans hState) ..

theorem Still.settle (h : Still b s) (hState : (s.record b).state = .running) : StepsOk (enterSettle b s) := by
  simp only [enterSettle]
  split
  · exact (h.enterLeakPhase _ _).measure ((enterLeakPhase_state ..).trans hState)
  · exact h.enter hState _ (.inr (.inl rfl))

/-! ## The manifold (R131 to R134) -/

/-- The manifold freed by bay `b` goes on to the head of the queue, if there is one. -/
theorem Others.released (hBay : ∀ c, c ≠ b → (s.bay c).StepOk)
    (hQueued : ∀ c, c ≠ b → (c ∈ s.manifold.queue ↔ (s.bay c).leak.phase = .fillWait)) (hOnce : s.manifold.queue.Nodup)
    (hHolder : ∀ c, c ≠ b → (s.bay c).leak.phase ≠ .fill) (hFree : s.manifold.granted = none) (hb : b ∉ s.manifold.queue) :
    Others b (grantHead s) ∧ (grantHead s).bay b = s.bay b ∧ b ∉ (grantHead s).manifold.queue ∧
      (grantHead s).manifold.granted ≠ some b := by
  cases hQueue : s.manifold.queue with
  | nil =>
    have hNone : nextHolder s = none := by simp [nextHolder, hQueue]
    rw [grantHead_of_none hNone]
    exact ⟨⟨hBay, hQueued, hOnce, fun c hc => iff_of_false (by simp [hFree]) (hHolder c hc), fun e => absurd hQueue e⟩, rfl,
      by rw [hQueue] at hb; rwa [hQueue], by simp [hFree]⟩
  | cons d ds =>
    have hNext : nextHolder s = some d := by simp [nextHolder, hFree, hQueue]
    have hdb : d ≠ b := by rintro rfl; exact hb (by simp [hQueue])
    have hSame := grantHead_bay_same hNext
    have hOther : ∀ c, c ≠ d → (grantHead s).bay c = s.bay c := fun c hc => grantHead_bay_other (by rw [hNext]; simpa using Ne.symm hc)
    have hManifold : (grantHead s).manifold = ⟨some d, ds⟩ := by rw [grantHead_manifold, hNext, hQueue]; rfl
    have hWait : (s.bay d).leak.phase = .fillWait := (hQueued d hdb).mp (by simp [hQueue])
    have hd : d ∉ ds := (List.nodup_cons.mp (hQueue ▸ hOnce)).1
    have hStep : (s.bay d).record.phase = .fillWait := by rw [(hBay d hdb).phase_of_leak (by simp [hWait]), hWait]; rfl
    have hOk := hBay d hdb
    rw [hManifold, hOther b (Ne.symm hdb)]
    refine ⟨⟨fun c hc => ?_, fun c hc => ?_, ?_, fun c hc => ?_, ?_⟩, rfl, fun e => hb (by simp [hQueue, e]), by simpa using hdb⟩
    · by_cases hcd : c = d
      · subst hcd
        rw [hSame]
        exact ⟨fun _ => hOk.running (by simp [hStep]), rfl, by rw [hOk.listening, hStep]; simp, hOk.one, by rw [hOk.row, hStep]; simp,
          fun e => absurd (hOk.dwell e) (by simp [hStep])⟩
      · rw [hOther c hcd]; exact hBay c hc
    · rw [hManifold]
      by_cases hcd : c = d
      · subst hcd
        rw [hSame]
        simp [hd]
      · rw [hOther c hcd, ← hQueued c hc, hQueue]
        simp [hcd]
    · rw [hManifold]; exact (List.nodup_cons.mp (hQueue ▸ hOnce)).2
    · rw [hManifold]
      by_cases hcd : c = d
      · subst hcd; rw [hSame]; simp
      · rw [hOther c hcd]
        exact iff_of_false (by simpa using Ne.symm hcd) (hHolder c hc)
    · rw [hManifold]; simp

/-- A holder that gives the manifold up is still. -/
theorem StepsOk.release (h : StepsOk s) (hFill : (s.bay b).leak.phase = .fill) : Still b (releaseManifold b s) ∧
    ((releaseManifold b s).record b).state = (s.record b).state := by
  have hGranted := (h.holder b).mpr hFill
  have hStep : (s.record b).phase = .fill := by rw [State.record, (h.bay b).phase_of_leak (by simp [hFill]), hFill]; rfl
  have hOther : ∀ c, c ≠ b → (freeManifold b s).bay c = s.bay c := fun c hc => by rw [freeManifold_bay, if_neg hc]
  have hHolder : ∀ c, c ≠ b → (s.bay c).leak.phase ≠ .fill := fun c hc e => by
    have := (h.holder c).mpr e
    rw [hGranted] at this
    exact hc (Option.some.inj this).symm
  have hOwn : (freeManifold b s).bay b = { s.bay b with record := { s.record b with lines := { (s.record b).lines with fill := false } } } := by
    rw [freeManifold_bay, if_pos rfl]
  obtain ⟨hOthers, hBay, hQueue, hNot⟩ := Others.released (b := b) (s := freeManifold b s) (fun c hc => by rw [hOther c hc]; exact h.bay c)
    (fun c hc => by rw [hOther c hc]; exact h.queued c) h.once (fun c hc => by rw [hOther c hc]; exact hHolder c hc) rfl
    (mt (h.queued b).mp (by simp [hFill]))
  rw [releaseManifold_holder hGranted]
  refine ⟨⟨hOthers, ?_, ?_, ?_, hQueue, hNot⟩, by rw [State.record, hBay, hOwn]⟩
  · rw [hBay, hOwn]; exact mt (h.bay b).listening.mp (by rw [show (s.bay b).record.phase = .fill from hStep]; simp)
  · rw [hBay, hOwn]; exact (h.bay b).row.mpr (by rw [show (s.bay b).record.phase = .fill from hStep]; simp)
  · rw [hBay, hOwn]; exact not_not.mp (mt (h.bay b).dwell (by rw [show (s.bay b).record.phase = .fill from hStep]; simp))

/-- A bay that leaves the manifold leaves it to the others. -/
theorem Others.withdraw (h : Others b s) : Others b (withdrawManifold b s) := by
  have hMem : ∀ c, c ≠ b → (c ∈ s.manifold.queue.filter (· ≠ b) ↔ c ∈ s.manifold.queue) := fun c hc => by simp [hc]
  unfold withdrawManifold
  by_cases hGranted : s.manifold.granted = some b
  · have hOther : ∀ c, c ≠ b → (freeManifold b { s with manifold := { s.manifold with queue := s.manifold.queue.filter (· ≠ b) } }).bay c =
        s.bay c := fun c hc => by rw [freeManifold_bay, if_neg hc]; rfl
    rw [releaseManifold_holder (by exact hGranted)]
    refine (Others.released (fun c hc => ?_) (fun c hc => ?_) ?_ (fun c hc => ?_) rfl ?_).1
    · rw [hOther c hc]; exact h.bay c hc
    · rw [hOther c hc]; exact (hMem c hc).trans (h.queued c hc)
    · exact h.once.filter _
    · rw [hOther c hc]
      refine mt (h.holder c hc).mpr ?_
      rw [hGranted]
      simpa using Ne.symm hc
    · simp
  · rw [releaseManifold_other (by exact hGranted)]
    refine ⟨h.bay, fun c hc => (hMem c hc).trans (h.queued c hc), h.once.filter _, h.holder, fun e => h.busy fun e' => e ?_⟩
    show s.manifold.queue.filter _ = []
    rw [e']; rfl

theorem Others.endLeak (h : Others b s) : Others b (endLeak b s) :=
  (h.congr (fun c hc => by rw [mapLeak_bay_other _ _ hc]) rfl : Others b (mapLeak b LeakUnit.ended s)).withdraw

/-- A still bay asks for the manifold: it waits, or fills at once. -/
theorem Still.wait (h : Still b s) (hState : (s.record b).state = .running) : StepsOk (enterFillWait b s) := by
  have hStill := h.enterLeakPhase .fillWait none
  have hBay := enterLeakPhase_bay_same b .fillWait none s
  rw [enterFillWait, requestManifold]
  generalize Machine.enterLeakPhase b .fillWait none s = u at hStill hBay
  have hOwn : ∀ {t : State} {ph : LeakPhase}, (t.bay b).leak.phase = ph → (t.bay b).record.phase = ph.step → ph.step.ofLeak = true →
      ph.step ≠ .listening → (t.bay b).record.state = .running → (t.bay b).noise = (u.bay b).noise →
      (t.bay b).drive = (u.bay b).drive → (t.bay b).StepOk := by
    intro t ph hLeak hPhase hOf hListening hRun hNoise hDrive
    exact {
      running := fun _ => hRun
      leak := by rw [hPhase, hLeak, if_pos hOf]
      listening := by rw [hNoise, hPhase]; exact iff_of_false hStill.noise hListening
      one := by rw [hNoise]; exact fun e => hStill.noise (.inl e.1)
      row := by rw [hNoise, hPhase]; exact iff_of_true hStill.row hListening
      dwell := by rw [hDrive]; exact fun e => absurd hStill.dwell e }
  cases hGranted : u.manifold.granted with
  | none =>
    have hEmpty : u.manifold.queue = [] := not_not.mp fun e => hStill.others.busy e hGranted
    have hNext : nextHolder { u with manifold := { u.manifold with queue := u.manifold.queue ++ [b] } } = some b := by
      simp [nextHolder, hGranted, hEmpty]
    have hSame := grantHead_bay_same hNext
    have hManifold : (grantHead { u with manifold := { u.manifold with queue := u.manifold.queue ++ [b] } }).manifold = ⟨some b, []⟩ := by
      rw [grantHead_manifold, hNext]; simp [hEmpty]
    have hOther : ∀ c, c ≠ b → (grantHead { u with manifold := { u.manifold with queue := u.manifold.queue ++ [b] } }).bay c = u.bay c :=
      fun c hc => grantHead_bay_other (by rw [hNext]; simpa using Ne.symm hc)
    have hOthers : Others b (grantHead { u with manifold := { u.manifold with queue := u.manifold.queue ++ [b] } }) := by
      refine ⟨fun c hc => by rw [hOther c hc]; exact hStill.others.bay c hc, fun c hc => ?_, by simp [hManifold], fun c hc => ?_,
        by simp [hManifold]⟩
      · rw [hManifold, hOther c hc, ← hStill.others.queued c hc, hEmpty]
      · rw [hManifold, hOther c hc, ← hStill.others.holder c hc, hGranted]
        exact iff_of_false (by simpa using Ne.symm hc) (by simp)
    refine hOthers.stepsOk (hOwn (ph := .fill) ?_ ?_ rfl (by simp [LeakPhase.step]) ?_ ?_ ?_) (by rw [hManifold, hSame]; simp)
      (by rw [hManifold, hSame]; simp)
    · rw [hSame]
    · rw [hSame]; rfl
    · rw [hSame]
      show (u.bay b).record.state = _
      rw [hBay]; exact hState
    · rw [hSame]; rfl
    · rw [hSame]; rfl
  | some d =>
    have hNext : nextHolder { u with manifold := { u.manifold with queue := u.manifold.queue ++ [b] } } = none := by
      simp [nextHolder, hGranted]
    have hLeak : (u.bay b).leak.phase = .fillWait := by rw [hBay]
    rw [grantHead_of_none hNext]
    have hOthers : Others b { u with manifold := { u.manifold with queue := u.manifold.queue ++ [b] } } := by
      refine ⟨hStill.others.bay, fun c hc => ?_, ?_, hStill.others.holder, fun _ => by simp [hGranted]⟩
      · exact (show c ∈ u.manifold.queue ++ [b] ↔ c ∈ u.manifold.queue by simp [hc]).trans (hStill.others.queued c hc)
      · exact List.nodup_append.mpr ⟨hStill.others.once, List.nodup_singleton b, fun x hx y hy => by
          rintro rfl; exact hStill.unqueued (by rwa [List.mem_singleton.mp hy] at hx)⟩
    refine hOthers.stepsOk (hOwn (ph := .fillWait) hLeak ?_ rfl (by simp [LeakPhase.step]) ?_ rfl rfl) (iff_of_true (by simp) hLeak) ?_
    · show (u.bay b).record.phase = _
      rw [hBay]
    · show (u.bay b).record.state = _
      rw [hBay]; exact hState
    · exact iff_of_false hStill.ungranted (by
        show (u.bay b).leak.phase ≠ _
        rw [hLeak]; decide)

/-! ## What reaches a LEAK step (R137 to R148) -/

theorem StepsOk.leak_running (h : StepsOk s) (hLeak : (s.bay b).leak.phase ≠ .idle) : (s.record b).state = .running :=
  (h.bay b).leakRuns hLeak

theorem StepsOk.askAmbient (h : StepsOk s) (hLeak : (s.bay b).leak.phase = .ambient) : StepsOk (askAmbient b s) := by
  simp only [Machine.askAmbient]
  split
  · exact ((h.still_of_leak hLeak (.inl rfl)).mapLeak _).wait (by simpa using h.leak_running (by simp [hLeak]))
  · exact h

theorem Still.ambient (h : Still b s) (hState : (s.record b).state = .running) (o : LeakOps) : StepsOk (enterAmbient b o s) :=
  ((h.mapLeak _).enter (by simpa using hState) _ (.inl rfl)).askAmbient (by rw [enterLeakPhase_bay_same])

theorem StepsOk.fillSample (h : StepsOk s) (hLeak : (s.bay b).leak.phase = .fill) (p : Int) : StepsOk (fillSample b p s) := by
  have hHighest : StepsOk (Machine.mapLeak b (fun u => { u with highest := some (max p (u.highest.getD p)) }) s) := h.mapLeak rfl
  simp only [Machine.fillSample]
  split
  · obtain ⟨hStill, hState⟩ := hHighest.release (b := b) (by simpa using hLeak)
    exact hStill.settle (hState.trans (by simpa using h.leak_running (by simp [hLeak])))
  · exact hHighest

theorem StepsOk.failFill (h : StepsOk s) (hLeak : (s.bay b).leak.phase = .fill) : StepsOk (failFill b s) := by
  obtain ⟨hStill, hState⟩ := h.release hLeak
  exact hStill.postVent (hState.trans (h.leak_running (by simp [hLeak]))) ..

theorem StepsOk.endMeasure (h : StepsOk s) (hLeak : (s.bay b).leak.phase = .measure) (p1 t1 : Int) : StepsOk (endMeasure b p1 t1 s) := by
  have hStill := h.still_of_leak hLeak (.inr (.inr (.inl rfl)))
  have hState := h.leak_running (b := b) (by simp [hLeak])
  simp only [Machine.endMeasure, computeLeak]
  split
  · split
    · exact (hStill.mapLeak _).postVent (by simpa using hState) ..
    · split
      · exact (hStill.mapLeak _).settle (by simpa using hState)
      · exact hStill.postVent hState ..
  · exact hStill.postVent hState ..

/-! ## Leaving a plan (R67 to R71, R20) -/

theorem finishBay_record_phase (b : BayId) (v : FinalVerdict) (s : State) : ((finishBay b v s).record b).phase = .none := by
  rw [finishBay_record_same]

theorem Resting.finish (h : Resting b s) (v : FinalVerdict) : StepsOk (finishBay b v s) := by
  obtain ⟨-, hDrive, -, hNoise, hLeak⟩ := finishBay_blocks b v s
  have hStill : Still b (finishBay b v s) := h.toStill.of_bay (fun _ hc => finishBay_bay_other _ _ hc) hNoise (by rw [hDrive]; rfl) (by simp)
  exact (⟨hStill, by rw [hLeak]; exact h.leak⟩ : Resting b (finishBay b v s)).stepsOk_none (finishBay_record_phase ..)

theorem StepsOk.settleEnding (h : StepsOk s) : StepsOk (settleEnding b s) := by
  unfold Machine.settleEnding finishAborting finishClosing
  split
  · split
    · next hState => exact (h.resting_out (by simp [hState])).finish _
    · next hState =>
      split
      · exact (h.resting_out (by simp [hState])).finish _
      · exact h
    · exact h
  · exact h

theorem examineWindDown_dwell (d : DriveLink) : d.examineWindDown.dwell = d.dwell := by
  unfold DriveLink.examineWindDown
  split
  · split <;> rfl
  · rfl

theorem StepsOk.examineEnding (h : StepsOk s) : StepsOk (examineEnding b s) :=
  (h.mapDrive (by rw [examineWindDown_dwell])).settleEnding

theorem Resting.setBayState (h : Resting b s) (st : BayState) : Resting b (setBayState b st s) :=
  (h.mapRecord fun r => { r with state := st }).of_shared rfl rfl

theorem Resting.closing (h : Resting b s) : StepsOk (enterClosing b s) := by
  obtain ⟨l, hRecord⟩ := beginClosing_record_same b s
  have hBegun : Resting b (beginClosing b s) := (((h.mapRecord _).setBayState _).mapDrive rfl).refreshLines
  rw [enterClosing_eq]
  exact (hBegun.stepsOk_none (by rw [hRecord])).examineEnding

theorem Resting.held (h : Resting b s) (point : HoldPoint) : StepsOk (enterHeld b point s) :=
  ((h.mapRecord _).setBayState _).stepsOk_none (by simp)

/-- Every step's work ends with an abort. -/
theorem StepsOk.enterAborting (h : StepsOk s) (c : Cause) : StepsOk (enterAborting b c s) := by
  obtain ⟨n, l, hRecord, -⟩ := beginAborting_record b c s
  obtain ⟨-, hDrive, -, hLeak⟩ := beginAborting_blocks b c s
  have hGone := endLeak_gone b (cancelReductions b (abortRecorded b c s))
  have hCancelled : Others b (cancelReductions b (abortRecorded b c s)) := (h.others b).congr
    (fun d hd => by rw [cancelReductions_bay_other _ hd, abortRecorded_bay_other _ _ hd]) (by simp [cancelReductions, abortRecorded])
  have hFree : ∀ k, ((beginAborting b c s).buf b k).state ≠ .acquiring := fun k => by
    rw [beginAborting_buf c (h.bay b).one]
    unfold ListenBuffer.cancelled
    split
    · simp [ListenBuffer.freed]
    · split <;> simp_all [ListenBuffer.freed]
  have hStill : Still b (beginAborting b c s) := {
    others := hCancelled.endLeak.congr (fun d hd => by rw [beginAborting_bay_other _ _ hd]) (beginAborting_manifold ..)
    noise := fun e => e.elim (hFree .a0) (hFree .a1)
    row := beginAborting_row ..
    dwell := by rw [hDrive]; unfold abortDrive; split <;> rfl
    unqueued := by rw [beginAborting_manifold]; exact hGone.1
    ungranted := by rw [beginAborting_manifold]; exact hGone.2 }
  rw [enterAborting_eq]
  exact ((⟨hStill, by rw [hLeak]; rfl⟩ : Resting b (beginAborting b c s)).stepsOk_none (by rw [hRecord])).examineEnding

theorem StepsOk.recordSecondary (h : StepsOk s) (f : Cause) : StepsOk (recordSecondary b f s) := h.mapRecord rfl rfl

theorem StepsOk.takeFault (h : StepsOk s) (f : Cause) : StepsOk (takeFault b f s) := by
  unfold Machine.takeFault
  split
  · exact h.enterAborting f
  · exact h.enterAborting f
  · exact h.enterAborting f
  · exact h.recordSecondary f
  · exact h

end Sys2Proof.Machine
end

section
/-! PROOF. The step phases through a walk, an event and a command: everything that keeps them (R54 to R60, R81 to R88, R108 to R118). -/

namespace Sys2Proof.Machine

variable {b : BayId} {s t : State}

/-! ## The noise check -/

theorem Resting.congr (h : Resting b s) (hBay : ∀ c, (t.bay c).work = (s.bay c).work) (hManifold : t.manifold = s.manifold) :
    Resting b t := by
  obtain ⟨-, -, hLeak, ⟨h0, h1, hRow⟩, hDwell⟩ := Bay.work_eq_iff.mp (hBay b)
  exact ⟨⟨h.others.congr (fun c _ => hBay c) hManifold, by rw [NoiseUnit.acquiring, h0, h1]; exact h.noise, hRow.mpr h.row,
    hDwell.mpr h.dwell, by rw [hManifold]; exact h.unqueued, by rw [hManifold]; exact h.ungranted⟩, by rw [hLeak]; exact h.leak⟩

/-- The engine takes no buffer that is ACQUIRING, so a step's work does not show it. -/
theorem engineTake_work (h : ∀ e ∈ s.reducer.queue, (s.buf e.1 e.2).state ≠ .acquiring) (c : BayId) :
    ((engineTake s).bay c).work = (s.bay c).work := by
  unfold engineTake
  split
  · next d k rest _ hQueue =>
    have hBuf : ((s.bay d).noise.get k).state ≠ .acquiring := h (d, k) (by simp [hQueue])
    by_cases hc : c = d
    · subst hc
      refine Bay.work_eq_iff.mpr ?_
      simp only [mapBuf, mapNoise_bay_same]
      cases k <;> simp_all [NoiseUnit.set, NoiseUnit.get, State.bay]
    · rw [mapBuf, mapNoise_bay_other _ _ hc]; rfl
  · rfl

theorem ReducerOk.queue_not_acquiring (h : ReducerOk s) : ∀ e ∈ s.reducer.queue, (s.buf e.1 e.2).state ≠ .acquiring := fun e he => by
  rw [(h.queued e.1 e.2).mp he]
  decide

theorem StepsOk.engineTake (h : StepsOk s) (hReducer : ReducerOk s) : StepsOk (engineTake s) :=
  h.congr (engineTake_work hReducer.queue_not_acquiring) (engineTake_manifold s)

theorem StepsOk.listening_facts (h : StepsOk s) {k : BufId} (hk : (s.bay b).noise.find .acquiring = some k) :
    (s.record b).phase = .listening ∧ (s.record b).state = .running ∧ (s.bay b).leak.phase = .idle ∧ (s.bay b).drive.dwell = none := by
  have hAcquiring : (s.bay b).noise.acquiring := by
    have := NoiseUnit.get_find hk
    cases k
    · exact .inl this
    · exact .inr this
  have hPhase := (h.bay b).listening.mp hAcquiring
  have hLeak := (h.bay b).leak
  rw [hPhase] at hLeak
  refine ⟨hPhase, (h.bay b).running (by rw [hPhase]; decide), ?_, not_not.mp (mt (h.bay b).dwell (by rw [hPhase]; decide))⟩
  cases hl : (s.bay b).leak.phase <;> rw [hl] at hLeak <;> first | rfl | cases hLeak

/-- A listening bay whose buffers and row come to rest is at no work. -/
theorem StepsOk.unlisten (h : StepsOk s) {k : BufId} (hk : (s.bay b).noise.find .acquiring = some k)
    (hOther : ∀ c, c ≠ b → t.bay c = s.bay c) (hNoise : ¬(t.bay b).noise.acquiring) (hRow : (t.bay b).noise.row = .idle)
    (hDwell : (t.bay b).drive.dwell = (s.bay b).drive.dwell) (hLeak : (t.bay b).leak.phase = (s.bay b).leak.phase)
    (hManifold : t.manifold = s.manifold) : Resting b t := by
  obtain ⟨-, -, hIdle, hNone⟩ := h.listening_facts hk
  exact ⟨⟨(h.others b).congr (fun c hc => by rw [hOther c hc]) hManifold, hNoise, hRow, hDwell.trans hNone,
    by rw [hManifold, h.queued, hIdle]; decide, by rw [hManifold, Ne, h.holder, hIdle]; decide⟩, hLeak.trans hIdle⟩

/-- Of the buffers of a bay in order, the one found ACQUIRING is the only one. -/
theorem NoiseUnit.not_acquiring_set {n : NoiseUnit} {k : BufId} (hOne : ¬(n.a0.state = .acquiring ∧ n.a1.state = .acquiring))
    (hk : n.find .acquiring = some k) {x : ListenBuffer} (hx : x.state ≠ .acquiring) : ¬(n.set k x).acquiring := by
  have hFound := NoiseUnit.get_find hk
  rintro (e | e) <;> cases k <;> simp only [NoiseUnit.set, NoiseUnit.get] at e hFound
  · exact hx e
  · exact hOne ⟨e, hFound⟩
  · exact hOne ⟨hFound, e⟩
  · exact hx e

/-! ## The start of a step's work (R81, R85, R110, R112, R136) -/

/-- What the start of a step leaves: at no work where the step is over at once, else with the step's phase in order. -/
def Started (b : BayId) (out : Bool × State) : Prop := (out.1 = true → Resting b out.2) ∧ (out.1 = false → StepsOk out.2)

theorem Started.over (h : Resting b s) : Started b (true, s) := ⟨fun _ => h, nofun⟩
theorem Started.working (h : StepsOk s) : Started b (false, s) := ⟨nofun, fun _ => h⟩

theorem Resting.phase (h : Resting b s) (hState : (s.record b).state = .running) {ph : StepPhase} (hListening : ph ≠ .listening)
    (hLeak : ph.ofLeak = false) : StepsOk (setPhase b ph s) :=
  (h.mapRecord fun r => { r with phase := ph }).stepsOk (fun _ => by simpa using hState) (by simpa using hListening) (by simpa using hLeak)

theorem Resting.startRamp (h : Resting b s) (hState : (s.record b).state = .running) (o : RampOps) : Started b (startRamp b o s) := by
  have hTarget : Resting b (Machine.mapDrive b (fun d => { d with
    target := o.target, rampRate := o.rate.toNat, torqueLimit := o.torque.toNat }) s) := h.mapDrive rfl
  simp only [Machine.startRamp]
  split
  · exact .over hTarget
  · split
    · exact .working (hTarget.phase (by simpa using hState) (by decide) rfl)
    · exact .working (hTarget.phase (by simpa using hState) (by decide) rfl)

/-- A bay at no work that begins to dwell, with or without its accumulator. -/
theorem Resting.dwelling (h : Resting b s) (hOther : ∀ c, c ≠ b → t.bay c = s.bay c) (hManifold : t.manifold = s.manifold)
    (hNoise : (t.bay b).noise = (s.bay b).noise) (hLeak : (t.bay b).leak = (s.bay b).leak) (hPhase : (t.record b).phase = .dwelling)
    (hState : (t.record b).state = .running) : StepsOk t := by
  have hPhase' : (t.bay b).record.phase = .dwelling := hPhase
  refine (h.others.congr (fun c hc => by rw [hOther c hc]) hManifold).stepsOk ?_
    (iff_of_false (by rw [hManifold]; exact h.unqueued) (by simp [hLeak, h.leak]))
    (iff_of_false (by rw [hManifold]; exact h.ungranted) (by simp [hLeak, h.leak]))
  exact {
    running := fun _ => hState
    leak := by rw [hPhase', hLeak, h.leak]; rfl
    listening := by rw [hNoise, hPhase']; exact iff_of_false h.noise (by decide)
    one := by rw [hNoise]; exact fun e => h.noise (.inl e.1)
    row := by rw [hNoise, hPhase']; exact iff_of_true h.row (by decide)
    dwell := fun _ => hPhase' }

theorem Resting.startDwell (h : Resting b s) (hState : (s.record b).state = .running) (o : DwellOps) : Started b (startDwell b o s) := by
  refine .working (h.dwelling (fun c hc => ?_) ?_ ?_ ?_ ?_ ?_)
  · simp only [setPhase]
    rw [mapRecord_bay_other _ _ hc, mapRecord_bay_other _ _ hc]
    split
    · exact mapDrive_bay_other _ _ hc
    · rfl
  all_goals
    simp only [setPhase]
    by_cases hTorque : o.torqueOn = true <;> simp [hTorque, hState]

theorem Resting.startListen (h : Resting b s) (hState : (s.record b).state = .running) (o : ListenOps) :
    Started b (startListen b o s) := by
  simp only [Machine.startListen]
  split
  · exact .working (h.phase hState (by decide) rfl)
  · next k hk =>
    split
    · exact .over (h.postResult _)
    · refine .working ?_
      have hAcquiring : (ListenBuffer.acquire s.now o (s.record b).slot).state = .acquiring := rfl
      have hBay : (setPhase b .listening (mapNoise b (fun n => (n.set k (ListenBuffer.acquire s.now o (s.record b).slot)).rowHunting) s)).bay b =
          { s.bay b with
            noise := ((s.bay b).noise.set k (ListenBuffer.acquire s.now o (s.record b).slot)).rowHunting
            record := { s.record b with phase := .listening } } := by
        simp [setPhase, State.record]
      have hOther : ∀ c, c ≠ b → (setPhase b .listening (mapNoise b (fun n => (n.set k (ListenBuffer.acquire s.now o
          (s.record b).slot)).rowHunting) s)).bay c = s.bay c := fun c hc => by
        rw [setPhase, mapRecord_bay_other _ _ hc, mapNoise_bay_other _ _ hc]
      have hOthers : Others b (setPhase b .listening (mapNoise b (fun n => (n.set k (ListenBuffer.acquire s.now o
          (s.record b).slot)).rowHunting) s)) := h.others.congr (fun c hc => by rw [hOther c hc]) rfl
      have hIdle : (s.bay b).leak.phase = .idle := h.leak
      refine hOthers.stepsOk ?_ (by rw [hBay]; exact iff_of_false h.unqueued (by simp [hIdle]))
        (by rw [hBay]; exact iff_of_false h.ungranted (by simp [hIdle]))
      rw [hBay]
      have hNot0 : (s.bay b).noise.a0.state ≠ .acquiring := fun e => h.noise (.inl e)
      have hNot1 : (s.bay b).noise.a1.state ≠ .acquiring := fun e => h.noise (.inr e)
      exact {
        running := fun _ => hState
        leak := by simp [hIdle, LeakPhase.step, StepPhase.ofLeak]
        listening := by cases k <;> simp [NoiseUnit.acquiring, NoiseUnit.set, NoiseUnit.rowHunting, hAcquiring]
        one := by cases k <;> simp [NoiseUnit.set, NoiseUnit.rowHunting, hNot0, hNot1]
        row := by simp [NoiseUnit.rowHunting]
        dwell := fun e => absurd h.dwell e }

theorem Resting.startLeak (h : Resting b s) (hState : (s.record b).state = .running) (o : LeakOps) : Started b (startLeak b o s) := by
  simp only [Machine.startLeak]
  split
  · exact .over (h.postResult _)
  · split
    · exact .over (h.postResult _)
    · exact .working (h.ambient hState o)

theorem Resting.startWork (h : Resting b s) (hState : (s.record b).state = .running) (ops : Operands) : Started b (startWork b ops s) := by
  cases ops with
  | ramp o => exact h.startRamp hState o
  | dwell o => exact h.startDwell hState o
  | listen o => exact h.startListen hState o
  | leak o => exact h.startLeak hState o

/-! ## The walk (R54 to R60) -/

theorem Resting.beginStep (h : Resting b s) (hState : (s.record b).state = .running) (hPhase : (s.record b).phase = .none)
    (rec : StepRecord) : Started b (beginStep b rec s) := by
  simp only [Machine.beginStep]
  split
  · exact .working ((h.stepsOk_none hPhase).takeFault _)
  · split
    · exact .over ((h.mapRecord _).postResult _)
    · exact ((h.mapRecord _).mapRecord _).startWork (by simpa using hState) _

theorem Resting.skipTest (h : Resting b s) (rec : StepRecord) : Resting b (skipTest b rec s).2 := by
  unfold Machine.skipTest
  split
  · dsimp only
    exact (h.of_shared (t := { s with store := (s.store.auditDecrement (rec.auditCell.getD 56)).2 }) rfl rfl).mapRecord _
  · exact h

theorem skipTest_phase (b : BayId) (rec : StepRecord) (s : State) :
    ((skipTest b rec s).2.record b).phase = (s.record b).phase := by
  unfold skipTest
  split
  · simp; rfl
  · rfl

theorem Resting.enterStep (h : Resting b s) (hState : (s.record b).state = .running) (k : Nat) (rec : StepRecord) :
    Started b (enterStep b k rec s) := by
  have hSlot : Resting b (Machine.mapRecord b (fun r => { r with slot := some k, phase := .none }) s) := h.mapRecord _
  have hRun : ((Machine.mapRecord b (fun r => { r with slot := some k, phase := .none }) s).record b).state = .running := by simpa using hState
  simp only [Machine.enterStep]
  split
  · exact .working (hSlot.phase hRun (by decide) rfl)
  · split
    · refine (hSlot.skipTest rec).beginStep ?_ ?_ rec
      · exact (state_of_frame (skipTest_frame b rec _) b).trans hRun
      · rw [skipTest_phase]; simp
    · exact .over (hSlot.skipTest rec)

theorem Resting.walk (h : Resting b s) (hState : (s.record b).state = .running) (fuel link : Nat) : StepsOk (walk fuel b link s) := by
  induction fuel generalizing link s with
  | zero => exact h.closing
  | succ n ih =>
    simp only [Machine.walk]
    split
    · exact h.closing
    split
    · exact h.held _
    split
    · exact h.closing
    split
    · exact h.closing
    · next o _ =>
      have hStarted := h.enterStep hState link o.record
      split
      · next hOver =>
        refine ih ((hStarted.1 hOver).mapRecord _) ?_ _
        simpa [enterStep_over hOver] using hState
      · next hOver => exact hStarted.2 (Bool.not_eq_true _ ▸ hOver)

theorem Resting.boundary (h : Resting b s) (hState : (s.record b).state = .running) (link : Nat) : StepsOk (boundary b link s) :=
  h.walk hState _ _

theorem Resting.endStep (h : Resting b s) (hState : (s.record b).state = .running) : StepsOk (endStep b s) :=
  (h.mapRecord _).boundary (by simpa using hState) _

/-! ## What wakes and what tracks (R58, R82, R111) -/

theorem StepsOk.wakeBay (h : StepsOk s) : StepsOk (wakeBay b s) := by
  simp only [Machine.wakeBay]
  split
  · exact h.settleEnding
  · next hState =>
    split
    · next hPhase =>
      have hResting : Resting b s := h.resting (by rw [hPhase]; decide) (by rw [hPhase]; decide) (by rw [hPhase]; rfl)
      split
      · next o _ =>
        have hStarted := hResting.startListen hState o
        unfold afterStart
        split
        · next hOver => exact (hStarted.1 hOver).endStep ((startListen_state o s b).trans hState)
        · next hOver => exact hStarted.2 (Bool.not_eq_true _ ▸ hOver)
      · exact h
    · split
      · next hEntry =>
        obtain ⟨hPhase, -⟩ := hEntry
        exact (h.resting (by rw [hPhase]; decide) (by rw [hPhase]; decide) (by rw [hPhase]; rfl)).boundary hState _
      · exact h
  · exact h

theorem StepsOk.examineRamp (h : StepsOk s) : StepsOk (examineRamp b s) := by
  simp only [Machine.examineRamp]
  split
  · next hPhase =>
    have hResting : Resting b s := by obtain e | e := hPhase <;> exact h.resting (by rw [e]; decide) (by rw [e]; decide) (by rw [e]; rfl)
    have hState : (s.record b).state = .running := (h.bay b).running (by
      show (s.record b).phase ≠ _
      obtain e | e := hPhase <;> rw [e] <;> decide)
    split
    · split
      · exact hResting.endStep hState
      · split
        · exact hResting.phase hState (by decide) rfl
        · exact h
    · exact h
  · exact h

theorem manualEnable_dwell (d : DriveLink) : d.manualEnable.dwell = d.dwell := by
  unfold DriveLink.manualEnable DriveLink.setEnable; split <;> rfl

theorem settleMessage_dwell (d : DriveLink) : d.settleMessage.dwell = d.dwell := by
  unfold DriveLink.settleMessage; split <;> rfl

theorem StepsOk.jogStop (h : StepsOk s) : StepsOk (jogStop b s) := by
  rw [jogStop_eq]
  refine h.mapDrive ?_
  unfold DriveLink.stopJog
  split
  · rfl
  · rw [manualEnable_dwell]

theorem StepsOk.driveTick (h : StepsOk s) : StepsOk (driveTick b s) := by
  have hGenerated : StepsOk (Machine.mapDrive b DriveLink.generatorStep s) := h.mapDrive Iff.rfl
  have hEnded : StepsOk (Machine.examineEnding b (Machine.examineRamp b (Machine.mapDrive b DriveLink.generatorStep s))) :=
    hGenerated.examineRamp.examineEnding
  have hManual : StepsOk (examineManual b (Machine.examineEnding b (Machine.examineRamp b (Machine.mapDrive b DriveLink.generatorStep s)))) := by
    unfold examineManual
    split
    · exact hEnded.mapDrive (by rw [manualEnable_dwell])
    · exact hEnded
  refine hManual.mapDrive ?_
  show (DriveLink.settleMessage _).dwell = none ↔ _
  rw [settleMessage_dwell]

theorem StepsOk.driveTicks (h : StepsOk s) (bs : List BayId) : StepsOk (driveTicks bs s) := by
  unfold Machine.driveTicks
  induction bs generalizing s with
  | nil => exact h
  | cons b bs ih => exact ih h.driveTick

end Sys2Proof.Machine
end

section
/-! PROOF. Every event and command keeps the step phases (R108, R109, R130, R134, R135). -/

namespace Sys2Proof.Machine

variable {b : BayId} {s t : State}

/-! ## Reports, durations and wind-downs -/

theorem StepsOk.raise (h : StepsOk s) (n : Notice) : StepsOk (raise n s) := h.of_shared rfl rfl

theorem StepsOk.driveEvent (h : StepsOk s) (c : Cause) : StepsOk (driveEvent b c s) := by
  unfold Machine.driveEvent
  split
  · exact h.takeFault c
  · exact h.jogStop.raise _
  · exact h

theorem StepsOk.faultCheck (h : StepsOk s) (st : DriveState) : StepsOk (faultCheck b st s) := by
  unfold Machine.faultCheck
  split
  · split
    · exact h
    · exact StepsOk.driveEvent (h.mapDrive Iff.rfl) _
  · exact h.mapDrive Iff.rfl

theorem accumulate_dwell (rep : DriveReport) (d : DriveLink) : (d.accumulate rep).dwell = none ↔ d.dwell = none := by
  unfold DriveLink.accumulate
  split
  · rfl
  · next h =>
    split
    · rfl
    · simp [h]

theorem StepsOk.takeDriveReport (h : StepsOk s) (rep : DriveReport) : StepsOk (takeDriveReport b rep s) := by
  have hTaken : StepsOk (Machine.mapDrive b (DriveLink.takeReport rep) s) := h.mapDrive Iff.rfl
  exact ((hTaken.faultCheck rep.state).mapDrive (accumulate_dwell ..)).examineRamp.examineEnding

theorem StepsOk.postIf (h : StepsOk s) (c : Bool) (r : Result) : StepsOk (if c then Machine.postResult b r s else s) := by
  cases c
  · exact h
  · exact h.postResult r

/-- A posting moves no step phase and no state. -/
theorem postIf_record (c : Bool) (r : Result) (s : State) :
    ((if c then postResult b r s else s).record b).phase = (s.record b).phase ∧
    ((if c then postResult b r s else s).record b).state = (s.record b).state := by
  cases c
  · exact ⟨rfl, rfl⟩
  · obtain ⟨rs, v, e, hBay⟩ := postResult_bay_same b r s
    simp only [if_true, State.record, hBay, and_self]

/-- A DWELL without its accumulator is at no work. -/
theorem StepsOk.undwell (h : StepsOk s) (hPhase : (s.record b).phase = .dwelling) :
    Resting b (Machine.mapDrive b (fun d => { d with dwell := none }) s) := by
  have hPhase' : (s.bay b).record.phase = .dwelling := hPhase
  have hLeak := (h.bay b).leak
  rw [hPhase'] at hLeak
  have hIdle : (s.bay b).leak.phase = .idle := by
    cases hl : (s.bay b).leak.phase <;> rw [hl] at hLeak <;> first | rfl | cases hLeak
  exact ⟨⟨(h.others b).congr (fun c hc => by rw [mapDrive_bay_other _ _ hc]) rfl,
    by rw [mapDrive_noise]; exact mt (h.bay b).listening.mp (by rw [hPhase']; decide),
    by rw [mapDrive_noise]; exact (h.bay b).row.mpr (by rw [hPhase']; decide), by simp,
    mt (h.queued b).mp (by rw [hIdle]; decide), mt (h.holder b).mp (by rw [hIdle]; decide)⟩, by rw [mapDrive_leak]; exact hIdle⟩

theorem StepsOk.finishDwell (h : StepsOk s) (hPhase : (s.record b).phase = .dwelling) (o : DwellOps) : StepsOk (finishDwell b o s) := by
  have hState : (s.record b).state = .running := (h.bay b).running (by rw [show (s.bay b).record.phase = .dwelling from hPhase]; decide)
  unfold Machine.finishDwell
  dsimp only
  generalize hTorque : (if o.torqueOn = true then _ else s) = u
  have hu : StepsOk u ∧ (u.record b).phase = .dwelling ∧ (u.record b).state = .running := by
    have hRecord := postIf_record (b := b) o.torqueOn (torqueResult s b o ((s.bay b).drive.dwell.getD ⟨0, 0, 0⟩)) s
    subst hTorque
    exact ⟨h.postIf _ _, hRecord.1.trans hPhase, hRecord.2.trans hState⟩
  obtain ⟨hOk, hDwelling, hRunning⟩ := hu
  have hRecord := postIf_record (b := b) o.riseOn (riseResult u b o) u
  exact ((hOk.postIf o.riseOn _).undwell (hRecord.1.trans hDwelling)).endStep (by rw [mapDrive_recordOf]; exact hRecord.2.trans hRunning)

theorem ListenBuffer.cancelled_acquiring (x : ListenBuffer) : x.cancelled.state = .acquiring ↔ x.state = .acquiring := by
  unfold ListenBuffer.cancelled
  split <;> simp_all [ListenBuffer.freed]

theorem cancelReductions_work (b c : BayId) (s : State) : ((cancelReductions b s).bay c).work = (s.bay c).work := by
  by_cases hc : c = b
  · subst hc
    obtain ⟨n, hRecord⟩ := cancelReductions_record c s
    obtain ⟨-, hDrive, -, hLeak, hRow⟩ := cancelReductions_blocks c s
    have h0 : ((cancelReductions c s).bay c).noise.a0 = _ := cancelReductions_buf c .a0 s
    have h1 : ((cancelReductions c s).bay c).noise.a1 = _ := cancelReductions_buf c .a1 s
    refine Bay.work_eq_iff.mpr ⟨?_, ?_, by rw [hLeak], ⟨?_, ?_, by rw [hRow]⟩, by rw [hDrive]⟩
    · exact (congrArg BayRecord.phase hRecord).trans rfl
    · exact (congrArg BayRecord.state hRecord).trans rfl
    · rw [h0]; exact ListenBuffer.cancelled_acquiring _
    · rw [h1]; exact ListenBuffer.cancelled_acquiring _
  · rw [cancelReductions_bay_other _ hc]

theorem StepsOk.cancelReductions (h : StepsOk s) : StepsOk (cancelReductions b s) :=
  h.congr (fun c => cancelReductions_work b c s) (by simp [Machine.cancelReductions])

theorem StepsOk.expireWindDown (h : StepsOk s) : StepsOk (expireWindDown b s) := by
  unfold Machine.expireWindDown
  split
  · next hState =>
    have hStuck : StepsOk (Machine.mapRecord b (fun r => { r with cause := some .driveStuck }) (Machine.cancelReductions b s)) :=
      h.cancelReductions.mapRecord rfl rfl
    refine (hStuck.resting_out (b := b) ?_).finish _
    rw [mapRecord_recordOf_same, state_of_frame (cancelReductions_frame b s), hState]
    decide
  · next hState =>
    refine ((h.recordSecondary _).resting_out (b := b) ?_).finish _
    rw [state_of_frame (recordSecondary_frame ..), hState]
    decide
  · exact h

/-! ## Samples -/

theorem StepsOk.finishVent (h : StepsOk s) (hLeak : (s.bay b).leak.phase = .vent) : StepsOk (finishVent b s) := by
  have hEnded : Resting b (Machine.mapLeak b LeakUnit.ended s) :=
    ⟨(h.still_of_leak hLeak (.inr (.inr (.inr rfl)))).mapLeak _, by simp [LeakUnit.ended, LeakUnit.reset]⟩
  refine hEnded.refreshLines.endStep ?_
  rw [refreshLines_record]
  simpa using h.leak_running (b := b) (by simp [hLeak])

theorem StepsOk.offerPressure (h : StepsOk s) (p : Int) : StepsOk (offerPressure b p s) := by
  unfold Machine.offerPressure
  split
  · next hLeak => exact h.askAmbient hLeak
  · next hLeak => exact h.fillSample hLeak p
  · next hLeak =>
    split
    · exact h.finishVent hLeak
    · exact h
  · exact h

/-- A change of the noise unit that keeps what is ACQUIRING and whether the row is IDLE. -/
theorem StepsOk.mapNoise (h : StepsOk s) {f : NoiseUnit → NoiseUnit}
    (h0 : (f (s.bay b).noise).a0.state = (s.bay b).noise.a0.state) (h1 : (f (s.bay b).noise).a1.state = (s.bay b).noise.a1.state)
    (hRow : (f (s.bay b).noise).row = .idle ↔ (s.bay b).noise.row = .idle) : StepsOk (mapNoise b f s) := by
  refine h.of_bay (b := b) (fun c hc => mapNoise_bay_other _ _ hc) ?_ rfl
  rw [mapNoise_bay_same, Bay.work_eq_iff]
  exact ⟨rfl, rfl, rfl, ⟨by rw [h0], by rw [h1], hRow⟩, Iff.rfl⟩

theorem StepsOk.failAcquisition (h : StepsOk s) {k : BufId} (hk : (s.bay b).noise.find .acquiring = some k) (c : Cause) :
    StepsOk (failAcquisition b k c s) := by
  have hFreed : Resting b (Machine.mapNoise b (fun n => (n.set k (n.get k).freed).rowIdle) s) := by
    refine h.unlisten hk (fun c hc => mapNoise_bay_other _ _ hc) ?_ (by simp [NoiseUnit.rowIdle]) (by simp) (by simp) rfl
    rw [mapNoise_bay_same]
    exact NoiseUnit.not_acquiring_set (h.bay b).one hk (x := ((s.bay b).noise.get k).freed) (by simp [ListenBuffer.freed])
  refine (hFreed.postResult _).endStep ?_
  rw [postResult_state, mapNoise_recordOf]
  exact (h.listening_facts hk).2.1

theorem joinReducer_bay (b c : BayId) (k : BufId) (s : State) : (joinReducer b k s).bay c =
    (Machine.mapRecord b (fun r => { r with pendingReductions := r.pendingReductions + 1 })
      (mapBuf b k (fun x => { x with state := .queued, acquisitionStart := none }) s)).bay c := rfl

/-- A full buffer joins the reducer and the bay is at no work. -/
theorem StepsOk.enqueue (h : StepsOk s) (hReducer : ReducerOk s) {k : BufId} (hk : (s.bay b).noise.find .acquiring = some k) :
    Resting b (enqueueBuffer b k (Machine.mapNoise b NoiseUnit.rowIdle s)) := by
  have hBuf : ∀ c l, (Machine.mapNoise b NoiseUnit.rowIdle s).buf c l = s.buf c l := fun c l => by
    by_cases hc : c = b
    · subst hc
      rw [State.buf, mapNoise_bay_same]
      cases l <;> rfl
    · rw [State.buf, mapNoise_bay_other _ _ hc]; rfl
  have hJoined : Resting b (joinReducer b k (Machine.mapNoise b NoiseUnit.rowIdle s)) := by
    have hState : ∀ l, ((joinReducer b k (Machine.mapNoise b NoiseUnit.rowIdle s)).buf b l).state = .acquiring →
        l ≠ k ∧ (s.buf b l).state = .acquiring := fun l e => by
      rw [joinReducer_buf, hBuf] at e
      split at e
      · cases e
      · next hl => exact ⟨fun e' => hl ⟨rfl, e'⟩, e⟩
    have hOne := (h.bay b).one
    have hFound := NoiseUnit.get_find hk
    refine h.unlisten hk (fun c hc => ?_) ?_ ?_ ?_ ?_ rfl
    · rw [joinReducer_bay, mapRecord_bay_other _ _ hc, mapBuf, mapNoise_bay_other _ _ hc, mapNoise_bay_other _ _ hc]
    · rintro (e | e)
      · obtain ⟨hl, hA0⟩ := hState .a0 e
        cases k
        · exact hl rfl
        · exact hOne ⟨hA0, hFound⟩
      · obtain ⟨hl, hA1⟩ := hState .a1 e
        cases k
        · exact hOne ⟨hFound, hA1⟩
        · exact hl rfl
    all_goals
      simp only [joinReducer_bay, mapRecord_bay_same, mapBuf, mapNoise_bay_same]
    cases k <;> rfl
  have hEngine : ∀ e ∈ (joinReducer b k (Machine.mapNoise b NoiseUnit.rowIdle s)).reducer.queue,
      ((joinReducer b k (Machine.mapNoise b NoiseUnit.rowIdle s)).buf e.1 e.2).state ≠ .acquiring := fun e he => by
    rw [joinReducer_buf, hBuf]
    split
    · simp
    · next hNot =>
      rw [joinReducer_reducer] at he
      obtain he | he := List.mem_append.mp he
      · exact hReducer.queue_not_acquiring e he
      · exact absurd (by simp [List.mem_singleton.mp he]) hNot
  exact hJoined.congr (engineTake_work hEngine) (engineTake_manifold _)

theorem StepsOk.finishAcquisition (h : StepsOk s) (hReducer : ReducerOk s) {k : BufId}
    (hk : (s.bay b).noise.find .acquiring = some k) : StepsOk (finishAcquisition b k s) := by
  unfold Machine.finishAcquisition
  split
  · exact h.failAcquisition hk _
  · have hFrame : frame b (enqueueBuffer b k (Machine.mapNoise b NoiseUnit.rowIdle s)) = frame b s := by simp [enqueueBuffer]
    exact (h.enqueue hReducer hk).endStep ((state_of_frame hFrame b).trans (h.listening_facts hk).2.1)

/-- The row of a bay in LISTENING is not IDLE. -/
theorem StepsOk.row_listening (h : StepsOk s) {k : BufId} (hk : (s.bay b).noise.find .acquiring = some k) : (s.bay b).noise.row ≠ .idle :=
  mt (h.bay b).row.mp (not_not.mpr (h.listening_facts hk).1)

/-- A buffer's contents change and the row begins anew. -/
theorem StepsOk.hunt (h : StepsOk s) (hReducer : ReducerOk s) {k : BufId} (hk : (s.bay b).noise.find .acquiring = some k)
    {f : ListenBuffer → ListenBuffer} (hf : ∀ x, (f x).state = x.state) :
    let u := Machine.mapNoise b NoiseUnit.rowHunting (mapBuf b k f s)
    StepsOk u ∧ ReducerOk u ∧ (u.bay b).noise.find .acquiring = some k := by
  intro u
  have hEq : u = Machine.mapNoise b (fun n => (n.set k (f (n.get k))).rowHunting) s := mapNoise_mapNoise b _ _ s
  have hStates : ((s.bay b).noise.set k (f ((s.bay b).noise.get k))).rowHunting.a0.state = (s.bay b).noise.a0.state ∧
      ((s.bay b).noise.set k (f ((s.bay b).noise.get k))).rowHunting.a1.state = (s.bay b).noise.a1.state := by
    cases k <;> exact ⟨by simp [NoiseUnit.set, NoiseUnit.rowHunting, NoiseUnit.get, hf], by simp [NoiseUnit.set, NoiseUnit.rowHunting, NoiseUnit.get, hf]⟩
  refine ⟨?_, ?_, ?_⟩
  · rw [hEq]
    exact h.mapNoise hStates.1 hStates.2 (iff_of_false (by simp [NoiseUnit.rowHunting]) (h.row_listening hk))
  · exact ((content_changes b k f s hf).trans (rowHunting_changes b _)).keep (fun _ _ hc => hc.reducerOk) hReducer
  · rw [hEq, mapNoise_bay_same]
    unfold NoiseUnit.find at hk ⊢
    simpa only [hStates.1, hStates.2] using hk

theorem StepsOk.completeRow (h : StepsOk s) (hReducer : ReducerOk s) {k : BufId} (hk : (s.bay b).noise.find .acquiring = some k)
    (row : List Int) : StepsOk (completeRow b k row s) := by
  obtain ⟨hOk, hReducer', hk'⟩ := h.hunt hReducer hk (fun x => ListenBuffer.addRow_state row x)
  simp only [Machine.completeRow]
  split
  · exact hOk.finishAcquisition hReducer' hk'
  · exact hOk

theorem StepsOk.slip (h : StepsOk s) (hReducer : ReducerOk s) {k : BufId} (hk : (s.bay b).noise.find .acquiring = some k)
    (lane : Nat) (v : Int) : StepsOk (slip b k lane v s) := by
  obtain ⟨hOk, -, hk'⟩ := h.hunt hReducer hk (f := fun x => { x with slips := x.slips + 1 }) fun _ => rfl
  simp only [Machine.slip]
  split
  · exact hOk.failAcquisition hk' _
  split
  · exact hOk.mapNoise rfl rfl (iff_of_false (by simp) (hOk.row_listening hk'))
  · exact hOk

theorem StepsOk.offerVibration (h : StepsOk s) (hReducer : ReducerOk s) (angle : Nat) (v : Int) : StepsOk (offerVibration b angle v s) := by
  simp only [Machine.offerVibration]
  split
  · next hk =>
    split
    · exact h.mapNoise rfl rfl (iff_of_false (by simp) (h.row_listening hk))
    · exact h
  · next hk =>
    split
    · exact h.slip hReducer hk _ _
    split
    · exact h.completeRow hReducer hk _
    · exact h.mapNoise rfl rfl (iff_of_false (by simp) (h.row_listening hk))
  · exact h

theorem StepsOk.loseChannel (h : StepsOk s) (w : LossWatch) : StepsOk (loseChannel b w s) := by
  unfold Machine.loseChannel
  split
  · exact h
  · exact (h.mapSensor _).takeFault _

theorem acquisitionDue_find {k : BufId} (h : acquisitionDue s b = some k) : (s.bay b).noise.find .acquiring = some k := by
  unfold acquisitionDue at h
  split at h
  · cases h
  · next l hl =>
    dsimp only at h
    split at h
    · cases h; exact hl
    · cases h

theorem leakDue_phase {ph : LeakPhase} {limit : Nat} (h : leakDue s b ph limit = true) : (s.bay b).leak.phase = ph := by
  simp only [leakDue, Bool.and_eq_true, decide_eq_true_eq] at h
  exact h.1

/-! ## A completed reduction (R122, R124) -/

theorem freeReduced_bay (j : EngineJob) (c : BayId) (s : State) : (freeReduced j s).bay c =
    (Machine.mapRecord j.bay (fun r => { r with pendingReductions := r.pendingReductions - 1 })
      (mapBuf j.bay j.buf ListenBuffer.freed s)).bay c := rfl

/-- The buffer of a reduction was not ACQUIRING and is not afterwards. -/
theorem freeReduced_work (hReducer : ReducerOk s) {j : EngineJob} (hj : s.reducer.engine = some j) (c : BayId) :
    ((freeReduced j s).bay c).work = (s.bay c).work := by
  have hState : ((s.bay j.bay).noise.get j.buf).state = .reducing := (hReducer.reducing j.bay j.buf).mp ⟨j.start, hj⟩
  by_cases hc : c = j.bay
  · subst hc
    refine Bay.work_eq_iff.mpr ?_
    simp only [freeReduced_bay, mapRecord_bay_same, mapBuf, mapNoise_bay_same]
    cases hk : j.buf <;> rw [hk] at hState <;> simp_all [NoiseUnit.set, NoiseUnit.get, ListenBuffer.freed]
  · rw [freeReduced_bay, mapRecord_bay_other _ _ hc, mapBuf, mapNoise_bay_other _ _ hc]

theorem StepsOk.completeReduction (h : StepsOk s) (hReducer : ReducerOk s) {j : EngineJob} (hj : s.reducer.engine = some j) :
    StepsOk (completeReduction j s) := by
  have hWake : ∀ u : State, StepsOk u → ReducerOk u → u.reducer.engine = some j →
      StepsOk (Machine.engineTake (Machine.wakeBay j.bay (freeReduced j u))) := fun u hu hr he => by
    have hFreed : StepsOk (freeReduced j u) := hu.congr (freeReduced_work hr he) rfl
    have hReduced : ReducerOk (freeReduced j u) := (Change.reduced j u he).reducerOk hr
    exact hFreed.wakeBay.engineTake ((wakeBay_changes ..).keep (fun _ _ hc => hc.reducerOk) hReduced)
  unfold Machine.completeReduction
  dsimp only
  split
  · exact hWake s h hReducer hj
  · refine hWake _ (h.postResult _) ((postResult_changes ..).keep (fun _ _ hc => hc.reducerOk) hReducer) ?_
    rw [(State.rest_eq_iff.mp (postResult_rest ..)).2.2.1]
    exact hj

/-! ## Inputs -/

theorem StepsOk.enterEmpty (h : StepsOk s) (hState : (s.record b).state ≠ .running) : StepsOk (enterEmpty b s) :=
  (((h.resting_out hState).mapRecord BayRecord.cleared).setBayState .empty).stepsOk_none (by simp [BayRecord.cleared, BayRecord.reset])

theorem StepsOk.inputFalls (h : StepsOk s) (l : InputLine) : StepsOk (inputFalls b l s) := by
  simp only [Machine.inputFalls]
  split
  case h_5 hState =>
    split
    · exact h.enterEmpty (by rw [hState]; decide)
    · exact h
  case h_6 =>
    split
    · exact h.jogStop
    · exact h
  all_goals exact h.takeFault _

theorem StepsOk.changeInput (h : StepsOk s) (l : InputLine) (v : Bool) : StepsOk (changeInput b l v s) := by
  by_cases hInput : (s.record b).inputs.get l = v
  · rwa [changeInput_same hInput]
  · have hRecorded : StepsOk (inputRecorded b l v s) := by
      unfold inputRecorded
      split
      · exact (h.mapRecord rfl rfl).raise _
      · exact h.mapRecord rfl rfl
    rw [changeInput_change hInput]
    split
    · exact hRecorded
    · exact hRecorded.inputFalls l

/-! ## Commands of a bay -/

theorem StepsOk.runPresent (h : StepsOk s) (serial : List Byte) (code : Nat) : StepsOk (runPresent serial code b s).state := by
  unfold Machine.runPresent
  split
  · exact h
  split
  · exact h
  split
  · exact h
  split
  · exact h
  · next hState _ =>
    have hEmpty : (s.record b).state = .empty := not_not.mp hState
    exact (((h.resting_out (by rw [hEmpty]; decide)).mapRecord _).setBayState .loaded).stepsOk_none
      (by simp [BayRecord.cleared, BayRecord.reset])

theorem StepsOk.divertBay (h : StepsOk s) (hState : (s.record b).state = .loaded) (c : Cause) : StepsOk (divertBay b c s) := by
  have hBay := divertBay_bay b c s
  have hResting := h.resting_out (b := b) (by rw [hState]; decide)
  have hManifold : (Machine.divertBay b c s).manifold = s.manifold := by rw [divertBay_shared]
  have hStill : Still b (Machine.divertBay b c s) :=
    hResting.toStill.of_bay (fun _ hc => divertBay_bay_other _ _ hc) (by rw [hBay]) (by rw [hBay]) hManifold
  refine (⟨hStill, by rw [hBay]; exact hResting.leak⟩ : Resting b (Machine.divertBay b c s)).stepsOk_none ?_
  rw [State.record, hBay]
  exact h.phase_none (by rw [hState]; decide)

theorem StepsOk.startPlan (h : StepsOk s) (hState : (s.record b).state = .loaded) (v : VariantEntry) : StepsOk (startPlan b v s) := by
  have hTaken : Resting b (takeReference v.plan s) := (h.resting_out (by rw [hState]; decide)).of_shared rfl rfl
  have hOwned : ∀ u, Resting b u → Resting b (setOwner b .sequencer u) := fun u hu =>
    (hu.mapRecord fun r => { r with owner := .sequencer }).of_shared rfl rfl
  have hBegun : Resting b (beginPlan b v s) :=
    ((((hOwned _ (hTaken.mapRecord _)).setBayState .running).mapSensor _).mapDrive rfl).refreshLines
  exact hBegun.boundary (beginPlan_state ..) _

theorem StepsOk.runHandover (h : StepsOk s) : StepsOk (runHandover b s).state := by
  simp only [Machine.runHandover]
  split
  · exact h
  split
  · exact h
  split
  · exact h
  split
  · exact h
  split
  · exact h
  · next hState _ _ _ =>
    have hLoaded : (s.record b).state = .loaded := not_not.mp hState
    have hTimed : StepsOk (Machine.mapRecord b (fun r => { r with handoverTime := some s.now }) s) := h.mapRecord rfl rfl
    split
    · exact hTimed.startPlan (by simpa using hLoaded) _
    · exact hTimed.divertBay (by simpa using hLoaded) _

theorem StepsOk.runWithdraw (h : StepsOk s) : StepsOk (runWithdraw b s).state := by
  unfold Machine.runWithdraw
  split
  · exact h
  · split
    · next hState => exact h.divertBay hState _
    · exact h.enterAborting _
    · exact h.enterAborting _
    · exact h.enterAborting _
    · exact h
    · exact h

theorem StepsOk.runAbort (h : StepsOk s) : StepsOk (runAbort b s).state := by
  unfold Machine.runAbort
  split
  · exact h.enterAborting _
  · exact h.enterAborting _
  · exact h.enterAborting _
  · exact h
  · exact h

theorem StepsOk.runRelease (h : StepsOk s) : StepsOk (runRelease b s).state := by
  simp only [Machine.runRelease]
  split
  · exact h
  split
  · exact h
  · next hState _ =>
    have hFinished : (s.record b).state = .finished := not_not.mp hState
    have hUnloading : StepsOk (Machine.setBayState b .unloading s) :=
      ((h.resting_out (by rw [hFinished]; decide)).setBayState .unloading).stepsOk_none
        (by simpa using h.phase_none (b := b) (by rw [hFinished]; decide))
    show StepsOk (if _ then _ else _)
    split
    · exact hUnloading
    · exact hUnloading.enterEmpty (by simp)

theorem StepsOk.runWriteLines (h : StepsOk s) (p : PortId) (mask : BitVec 8) (v : Bool) : StepsOk (runWriteLines p mask v b s).state := by
  simp only [Machine.runWriteLines]
  split
  · exact h
  split
  · exact h
  · exact StepsOk.mapRecord (b := b) h (f := fun r => { r with lines := writeLines mask v r.lines }) rfl rfl

theorem StepsOk.runConfigureBay (h : StepsOk s) (c : BayConfig) : StepsOk (runConfigureBay c b s).state := by
  unfold Machine.runConfigureBay
  split
  · refine h.of_bay (b := b) (t := mapBay b (fun x => { x with config := c }) s) (fun d hd => mapBay_bay_other _ _ hd) ?_ rfl
    rw [mapBay_bay_same]
    rfl
  · exact h

theorem StepsOk.runHold (h : StepsOk s) : StepsOk (runHold b s).state := by
  unfold Machine.runHold
  split
  · split
    · next hPhase => exact (h.resting (b := b) (by rw [hPhase]; decide) (by rw [hPhase]; decide) (by rw [hPhase]; rfl)).held _
    · exact StepsOk.mapRecord (b := b) h (f := fun r => { r with holdRequest := true }) rfl rfl
  all_goals exact h

theorem StepsOk.runResume (h : StepsOk s) : StepsOk (runResume b s).state := by
  unfold Machine.runResume
  split
  · next hState =>
    have hBegun : Resting b (beginResume b s) := ((h.resting_out (by rw [hState]; decide)).mapRecord _).setBayState .running
    exact hBegun.boundary (by simp [beginResume]) _
  · exact StepsOk.mapRecord (b := b) h (f := fun r => { r with holdRequest := false }) rfl rfl
  · exact h

theorem StepsOk.setOwner (h : StepsOk s) (o : Owner) : StepsOk (setOwner b o s) := (h.mapRecord rfl rfl).raise _

theorem StepsOk.runTakeManual (h : StepsOk s) : StepsOk (runTakeManual b s).state := by
  simp only [Machine.runTakeManual]
  split
  · split
    · exact h.setOwner _
    · exact h
    · exact h
  · exact h

theorem StepsOk.runReturnManual (h : StepsOk s) : StepsOk (runReturnManual b s).state := by
  unfold Machine.runReturnManual
  split
  · exact h
  · split
    · exact (h.mapDrive Iff.rfl).setOwner _
    · exact h

theorem StepsOk.runJog (h : StepsOk s) (v : Int) : StepsOk (runJog v b s).state := by
  simp only [Machine.runJog]
  split
  · exact h
  split
  · exact h.jogStop
  split
  · exact h
  split
  · exact h
  · have hJog : StepsOk (startJog b (jogSpeed (s.bay b).config.speedLimit v) s) := h.mapDrive (by rw [manualEnable_dwell])
    exact hJog

/-! ## Every command and event -/

theorem StepsOk.event (h : StepsOk s) (hReducer : ReducerOk s) {i : Instr} (hPort : portOf i = none) (hBay : bayOf i = some b)
    (hExec : exec i s = .next t) : StepsOk t := by
  cases i <;> cases hPort <;> cases hBay <;> cases hExec
  case driveReport =>
    split
    · exact h.takeDriveReport _
    · exact h
  case driveLost =>
    split
    · exact StepsOk.driveEvent (h.mapDrive Iff.rfl) _
    · exact h
  case rampTimeout =>
    split
    · exact h.takeFault _
    · exact h
  case dwellEnd =>
    split
    · next o ho => exact h.finishDwell (dwellDue_dwelling ho) o
    · exact h
  case windDownExpiry =>
    split
    · exact h.expireWindDown
    · exact h
  case holdExpired =>
    split
    · exact h.takeFault _
    · exact h
  case pressureWord => exact (h.mapSensor _).offerPressure _
  case temperatureWord => exact h.mapSensor _
  case vibrationWord => exact (h.mapSensor _).offerVibration (hReducer.of_noise (by simp) rfl (by simp)) _ _
  case foreignTagWord => exact h.mapSensor _
  case wordBreak => exact h.mapSensor _
  case silencePurge => exact h.mapSensor _
  case pressureLoss =>
    split
    · split
      · exact h.loseChannel _
      · exact h
    · exact h
  case temperatureLoss =>
    split
    · split
      · exact h.loseChannel _
      · exact h
    · exact h
  case acquisitionTimeout =>
    split
    · next k hk => exact h.failAcquisition (acquisitionDue_find hk) _
    · exact h
  case fillLimitExpiry =>
    split
    · next hDue => exact h.failFill (leakDue_phase hDue)
    · exact h
  case settleEnd =>
    split
    · next hDue =>
      have hLeak := leakDue_phase hDue
      exact (h.still_of_leak hLeak (.inr (.inl rfl))).measure (h.leak_running (by rw [hLeak]; decide))
    · exact h
  case measureEnd =>
    split
    · next hDue =>
      split
      · exact h.endMeasure (leakDue_phase hDue) _ _
      · exact h
    · exact h
  case ventLimitExpiry =>
    split
    · exact h.takeFault _
    · exact h
  case inputLineChange line level => exact h.changeInput line level

theorem StepsOk.bodyOfBay (h : StepsOk s) {i : Instr} (hBay : bayOf i = some b) : StepsOk (bodyOf i s).state := by
  have hOn : ∀ (n : Nat) (f : BayId → State → Reply), bayOfCode n = some b → StepsOk (f b s).state → StepsOk (onBay n f s).state :=
    fun n f hn hf => by rwa [onBay_valid f s hn]
  cases i <;> first | exact h | exact absurd hBay.symm (Option.some_ne_none _) | skip
  case present => exact hOn _ _ hBay (h.runPresent ..)
  case handover => exact hOn _ _ hBay h.runHandover
  case withdraw => exact hOn _ _ hBay h.runWithdraw
  case release => exact hOn _ _ hBay h.runRelease
  case setLines => exact hOn _ _ hBay (h.runWriteLines ..)
  case clearLines => exact hOn _ _ hBay (h.runWriteLines ..)
  case readBay => exact hOn _ _ hBay h
  case configureBay => exact hOn _ _ hBay (h.runConfigureBay _)
  case hold => exact hOn _ _ hBay h.runHold
  case resume => exact hOn _ _ hBay h.runResume
  case abort => exact hOn _ _ hBay h.runAbort
  case takeManual => exact hOn _ _ hBay h.runTakeManual
  case returnManual => exact hOn _ _ hBay h.runReturnManual
  case jog => exact hOn _ _ hBay (h.runJog _)
  case readLive => exact hOn _ _ hBay h

theorem powerOn_bay (s : State) (b : BayId) :
    (powerOn s).bay b = { Bay.reset with record := { BayRecord.reset with inputs := (s.record b).inputs } } := by
  cases b <;> rfl

/-- A bay at power-on is at no work. -/
theorem Bay.reset_stepOk (i : InputLines) : Bay.StepOk { Bay.reset with record := { BayRecord.reset with inputs := i } } where
  running h := absurd rfl h
  leak := rfl
  listening := by simp [NoiseUnit.acquiring, Bay.reset, NoiseUnit.reset, ListenBuffer.reset, BayRecord.reset]
  one := by simp [Bay.reset, NoiseUnit.reset, ListenBuffer.reset]
  row := by simp [Bay.reset, NoiseUnit.reset, BayRecord.reset]
  dwell h := absurd rfl h

theorem stepsOk_powerOn (s : State) : StepsOk (powerOn s) where
  bay b := by rw [powerOn_bay]; exact Bay.reset_stepOk _
  queued b := by rw [powerOn_bay]; exact iff_of_false List.not_mem_nil (by simp [Bay.reset, LeakUnit.reset])
  once := List.nodup_nil
  holder b := by rw [powerOn_bay]; exact iff_of_false (by simp [State.reset]) (by simp [Bay.reset, LeakUnit.reset])
  busy h := absurd rfl h

/-- A commit moves no step phase and no state. -/
theorem takeHead_work (s : State) (c : BayId) : ((takeHead s).bay c).work = (s.bay c).work := by
  have hRecord := takeHead_record s c
  refine Bay.work_eq_iff.mpr ⟨?_, ?_, by rw [takeHead_leak], by rw [takeHead_noise]; exact ⟨Iff.rfl, Iff.rfl, Iff.rfl⟩, by rw [takeHead_drive]⟩
  · refine (congrArg BayRecord.phase hRecord).trans ?_
    split <;> rfl
  · refine (congrArg BayRecord.state hRecord).trans ?_
    split <;> rfl

theorem StepsOk.effect {e : Prop} (h : StepsOk s) (hEffect : Effect e s t) : StepsOk t := by
  cases hEffect with
  | reset => exact stepsOk_powerOn s
  | take => exact h.congr (takeHead_work s) (takeHead_manifold s)
  | cellState => exact h.of_shared rfl rfl
  | _ => exact h.of_shared rfl rfl

theorem StepsOk.serve (h : StepsOk s) (p : PortId) (i : Instr) : StepsOk (serve p i (bodyOf i) s) := by
  by_cases hCarried : p ∈ carriedOn i
  · rw [serve_carried _ _ hCarried]
    refine StepsOk.of_shared (s := (bodyOf i s).state) ?_ rfl rfl
    cases hBay : bayOf i with
    | some b => exact h.bodyOfBay hBay
    | none => exact h.effect (body_effect (e := False) hBay)
  · rw [serve_foreign _ _ hCarried]
    exact h.of_shared rfl rfl

theorem StepsOk.sensorTick (h : StepsOk s) : StepsOk (sensorTick s) := by
  have hFold : ∀ (bs : List BayId) (u : State), StepsOk u → StepsOk (bs.foldl (fun t b => Machine.mapSensor b SensorLink.tick t) u) := by
    intro bs
    induction bs with
    | nil => exact fun u hu => hu
    | cons b bs ih => exact fun u hu => ih _ (hu.mapSensor _)
  exact hFold _ s h

theorem StepsOk.exec (h : StepsOk s) (hReducer : ReducerOk s) {i : Instr} (hExec : exec i s = .next t) : StepsOk t := by
  cases hPort : portOf i with
  | some p => rw [exec_command hPort] at hExec; cases hExec; exact h.serve p i
  | none =>
    cases hBay : bayOf i with
    | some b => exact h.event hReducer hPort hBay hExec
    | none =>
      cases i <;> first | exact absurd hPort (Option.some_ne_none _) | exact absurd hBay (Option.some_ne_none _) | skip
      case powerOnReset => cases hExec; exact stepsOk_powerOn s
      case millisecondTick order =>
        cases hExec
        have hClock : StepsOk (advanceTime s) := h.of_shared rfl rfl
        exact ((hClock.driveTicks (tickOrder order)).sensorTick).of_shared rfl rfl
      case reductionComplete =>
        cases hExec
        split
        · next j hj =>
          refine h.completeReduction hReducer ?_
          unfold reductionDue at hj
          split at hj
          · next j' hEngine =>
            split at hj
            · cases hj; exact hEngine
            · cases hj
          · cases hj
        · exact h
      case quietTimerExpiry p => cases hExec; exact h.of_shared rfl rfl
      case transferStart p => cases hExec; exact h.of_shared rfl rfl
      case requestTaken p bytes extra => cases hExec; exact h.of_shared rfl rfl
      case responseReady p =>
        cases hExec
        refine StepsOk.of_shared (s := runRequest p s) ?_ rfl rfl
        unfold runRequest
        split
        · next cmd _ =>
          cases hCmd : portOf cmd with
          | some p' => rw [runCommand_command hCmd]; exact h.serve p' cmd
          | none => rw [runCommand_event hCmd]; exact h
        · exact h

/-- Settles O11. -/
theorem stepPhasesMatchBlocks : Obligations.StepPhasesMatchBlocks := by
  intro s t hReducer hSteps hStep
  refine (step_keep (P := fun u => ReducerOk u ∧ StepsOk u) (fun u cs hu => ⟨?_, ?_⟩) (fun c u v hu hExec => ⟨?_, ?_⟩)
    ⟨hReducer, hSteps⟩ hStep).2
  · exact hu.1.of_noise (fun _ => rfl) rfl fun _ => rfl
  · exact hu.2.of_shared rfl rfl
  · exact (exec_changes hExec).keep (fun _ _ hc => hc.reducerOk) hu.1
  · exact hu.2.exec hu.1 hExec

end Sys2Proof.Machine
end

section
/-! PROOF. Every step keeps the custody of reports (R156, R163), the reference counts (R39, R41), the cell state (R1, R2), and the owners
and the limits of the drives (R71, R75, R80, R89 to R91). -/

namespace Sys2Proof.Machine

variable {b : BayId} {g d : Prop} {s t : State}

/-! ## What the step phases add to a run of moves -/

theorem StepsOk.driveTicks_stirs {e : Prop} (h : StepsOk s) (bs : List BayId) : Stirs True False e s (Machine.driveTicks bs s) := by
  unfold Machine.driveTicks
  induction bs generalizing s with
  | nil => exact .refl
  | cons b bs ih => exact (driveTick_moves (b := b) s (fun _ => (h.bay b).phaseRuns) False.elim).run.trans (ih h.driveTick)

/-- With the step phases in order, every command and event is a run of moves that find the states they need. -/
theorem StepsOk.exec_stirs (h : StepsOk s) {i : Instr} (hExec : Machine.exec i s = .next t) : Stirs True False False s t := by
  by_cases hTick : ∃ order, i = .millisecondTick order
  · obtain ⟨order, rfl⟩ := hTick
    cases hExec
    have hClock : StepsOk (advanceTime s) := h.of_shared rfl rfl
    exact Effect.clock.run.trans ((hClock.driveTicks_stirs _).trans ((sensorTick_stirs _).trans (Effect.ports _ False.elim).run))
  · exact Machine.exec_stirs hExec (fun order e => hTick ⟨order, e⟩) fun _ => h.bay

/-- With the step phases in order, what every move and effect keeps, a step keeps. -/
theorem StepsOk.step_keep {P : State → Prop} (h : StepsOk s) (hQueue : ∀ s cs, P s → P { s with pending := cs })
    (hEffect : ∀ s t, Effect False s t → P s → P t) (hMove : ∀ b s t, Move b True False s t → P s → P t) (hs : P s)
    (hStep : step s = .next t) : P t := by
  obtain rfl | ⟨c, cs, -, hExec⟩ := step_exec hStep
  · exact hs
  · have hQueued : StepsOk { s with pending := cs } := h.of_shared rfl rfl
    exact (hQueued.exec_stirs hExec).keep hEffect hMove (hQueue s cs hs)

/-! ## Custody (R156, R163) -/

/-- A report of the bay is with the queue: it is FINISHED or UNLOADING. -/
def BayState.ended (st : BayState) : Prop := st = .finished ∨ st = .unloading

/-- The waiting list stays and only bay `b` moves. -/
theorem CustodyOk.of_own (h : CustodyOk s) (hWaiting : t.reports.waiting = s.reports.waiting)
    (hOther : ∀ c, c ≠ b → (t.record c).core = (s.record c).core)
    (hListed : (s.record b).reportStatus = .waiting ↔ (t.record b).reportStatus = .waiting)
    (hFinished : (t.record b).reportStatus = .waiting → (t.record b).state = .finished)
    (hStatus : (t.record b).reportStatus ≠ .none ↔ (t.record b).state.ended) : CustodyOk t := by
  have hCore : ∀ c, c ≠ b → (t.record c).state = (s.record c).state ∧ (t.record c).reportStatus = (s.record c).reportStatus := fun c hc => by
    obtain ⟨hState, -, -, -, -, hReport, -⟩ := BayRecord.of_core (hOther c hc)
    exact ⟨hState, hReport⟩
  refine ⟨fun c => ?_, by rw [hWaiting]; exact h.once, fun c => ?_, fun c => ?_⟩ <;> by_cases hc : c = b
  · subst hc; rw [hWaiting, h.listed, hListed]
  · rw [hWaiting, (hCore c hc).2]; exact h.listed c
  · subst hc; exact hFinished
  · rw [(hCore c hc).1, (hCore c hc).2]; exact h.finished c
  · subst hc; exact hStatus
  · rw [(hCore c hc).1, (hCore c hc).2]; exact h.status c

/-- A bay goes from one state to another out of custody. -/
theorem CustodyOk.of_state (h : CustodyOk s) (hWaiting : t.reports.waiting = s.reports.waiting)
    (hOther : ∀ c, c ≠ b → (t.record c).core = (s.record c).core) (hReport : (t.record b).reportStatus = (s.record b).reportStatus)
    (hOld : ¬(s.record b).state.ended) (hNew : ¬(t.record b).state.ended) : CustodyOk t := by
  have hNone : (s.record b).reportStatus = .none := not_not.mp (mt (h.status b).mp hOld)
  rw [hNone] at hReport
  exact h.of_own hWaiting hOther (by simp [hNone, hReport]) (by simp [hReport]) (iff_of_false (by simp [hReport]) hNew)

/-- A report of bay `b`, out of custody, goes to the queue. -/
theorem CustodyOk.hand (h : CustodyOk s) (hReports : t.reports = s.reports) (hOther : ∀ c, c ≠ b → (t.record c).core = (s.record c).core)
    (hNone : (s.record b).reportStatus = .none) (hState : (t.record b).state = .finished) (rep : Report) :
    CustodyOk (handReport b rep t) := by
  have hCore : ∀ c, c ≠ b → ((handReport b rep t).record c).state = (s.record c).state ∧
      ((handReport b rep t).record c).reportStatus = (s.record c).reportStatus := fun c hc => by
    obtain ⟨hState, -, -, -, -, hReport, -⟩ := BayRecord.of_core (hOther c hc)
    rw [handReport_record, if_neg hc]
    exact ⟨hState, hReport⟩
  have hNot : b ∉ s.reports.waiting.map (·.bay) := by rw [h.listed, hNone]; decide
  have hOwn : ((handReport b rep t).record b).state = .finished := by rw [handReport_record, if_pos rfl]; exact hState
  have hLists : (handReport b rep t).reports.waiting = s.reports.waiting ∧ ((handReport b rep t).record b).reportStatus = .committed ∨
      (handReport b rep t).reports.waiting = s.reports.waiting ++ [⟨b, rep⟩] ∧
        ((handReport b rep t).record b).reportStatus = .waiting := by
    rw [handReport_reports, handReport_record, if_pos rfl, hReports]
    split
    · exact .inl ⟨by rw [commit_reports, hReports], by simp⟩
    · exact .inr ⟨rfl, rfl⟩
  obtain ⟨hWaiting, hReport⟩ | ⟨hWaiting, hReport⟩ := hLists
  · refine ⟨fun c => ?_, by rw [hWaiting]; exact h.once, fun c => ?_, fun c => ?_⟩ <;> by_cases hc : c = b
    · subst hc; rw [hWaiting, hReport]; exact iff_of_false hNot (by decide)
    · rw [hWaiting, (hCore c hc).2]; exact h.listed c
    · subst hc; exact fun _ => hOwn
    · rw [(hCore c hc).1, (hCore c hc).2]; exact h.finished c
    · subst hc; rw [hReport, hOwn]; decide
    · rw [(hCore c hc).1, (hCore c hc).2]; exact h.status c
  · refine ⟨fun c => ?_, ?_, fun c => ?_, fun c => ?_⟩
    · rw [hWaiting, List.map_append, List.mem_append]
      by_cases hc : c = b
      · subst hc; simp [hReport]
      · rw [(hCore c hc).2, h.listed]; simp [hc]
    · rw [hWaiting, List.map_append]
      exact List.nodup_append.mpr ⟨h.once, List.nodup_singleton _, fun x hx y hy => by
        rintro rfl
        rw [List.mem_singleton.mp hy] at hx
        exact hNot hx⟩
    all_goals by_cases hc : c = b
    · subst hc; exact fun _ => hOwn
    · rw [(hCore c hc).1, (hCore c hc).2]; exact h.finished c
    · subst hc; rw [hReport, hOwn]; decide
    · rw [(hCore c hc).1, (hCore c hc).2]; exact h.status c

theorem CustodyOk.none_of (h : CustodyOk s) (hState : ¬(s.record b).state.ended) : (s.record b).reportStatus = .none :=
  not_not.mp (mt (h.status b).mp hState)

theorem CustodyOk.congr (h : CustodyOk s) (hReports : t.reports = s.reports)
    (hRecord : ∀ c, (t.record c).state = (s.record c).state ∧ (t.record c).reportStatus = (s.record c).reportStatus) : CustodyOk t where
  listed c := by rw [hReports, (hRecord c).2]; exact h.listed c
  once := by rw [hReports]; exact h.once
  finished c := by rw [(hRecord c).1, (hRecord c).2]; exact h.finished c
  status c := by rw [(hRecord c).1, (hRecord c).2]; exact h.status c

theorem reports_of_rest (h : t.rest = s.rest) : t.reports = s.reports := (State.rest_eq_iff.mp h).2.2.2.1

theorem beginPlan_reports (b : BayId) (v : VariantEntry) (s : State) : (beginPlan b v s).reports = s.reports :=
  (reports_of_rest (refreshLines_rest b _)).trans rfl

theorem beginClosing_reports (b : BayId) (s : State) : (beginClosing b s).reports = s.reports :=
  (reports_of_rest (refreshLines_rest b _)).trans rfl

theorem CustodyOk.of_move (h : CustodyOk s) (hMove : Move b True d s t) : CustodyOk t := by
  have hOther : ∀ c, c ≠ b → (t.record c).core = (s.record c).core := fun c hc => hMove.core hc
  cases hMove with
  | still hFrame =>
    refine h.congr (congrArg Frame.reports hFrame) fun c => ?_
    obtain ⟨hState, -, -, -, -, hReport, -⟩ := BayRecord.of_core (frame_core hFrame c).2.1
    exact ⟨hState, hReport⟩
  | drive => exact h.congr rfl fun c => by simp
  | config => exact h.congr rfl fun c => by rw [config_record]; exact ⟨rfl, rfl⟩
  | manual _ hState =>
    have hNot : ¬(s.record b).state.ended := by obtain e | e := hState <;> simp [e, BayState.ended]
    exact h.of_state rfl hOther (by simp) hNot (by simpa using hNot)
  | unmanned =>
    exact h.of_own (b := b) rfl hOther (by simp) (by simpa using h.finished b) (by simpa [BayState.ended] using h.status b)
  | load serial code _ hState =>
    have hNone := h.none_of (b := b) (by simp [hState, BayState.ended])
    refine h.of_own (b := b) rfl hOther (by simp [hNone, loadAxle, BayRecord.cleared, BayRecord.reset]) ?_ ?_
    · simp [loadAxle, BayRecord.cleared, BayRecord.reset]
    · simp [loadAxle, BayRecord.cleared, BayRecord.reset, BayState.ended]
  | start v _ hState =>
    obtain ⟨l, hRecord⟩ := beginPlan_record_same b v s
    exact h.of_state (by rw [beginPlan_reports]) hOther (by rw [hRecord]) (by simp [hState, BayState.ended])
      (by rw [hRecord]; simp [BayState.ended])
  | divert cause _ hState =>
    refine h.hand (t := diverted b cause s) rfl (fun c hc => ?_) (h.none_of (by simp [hState, BayState.ended])) (by rw [diverted_record]) _
    rw [diverted, setBayState_record_other _ _ hc, mapRecord_recordOf_other _ _ hc]
  | post res =>
    obtain ⟨rs, v, e, hBay⟩ := postResult_bay_same b res s
    have hRecord : (postResult b res s).record b = { s.record b with results := rs, verdict := v, endRequest := e } :=
      congrArg Bay.record hBay
    exact h.of_own (b := b) (by rw [(postResult_shared b res s).2.2.1]) hOther (by rw [hRecord]) (by rw [hRecord]; exact h.finished b)
      (by rw [hRecord]; exact h.status b)
  | held point _ hState =>
    exact h.of_state rfl hOther (by simp [enterHeld]) (by simp [hState trivial, BayState.ended]) (by simp [enterHeld, BayState.ended])
  | resume _ hState =>
    exact h.of_state rfl hOther (by simp [beginResume]) (by simp [hState, BayState.ended]) (by simp [beginResume, BayState.ended])
  | closing _ hState =>
    obtain ⟨l, hRecord⟩ := beginClosing_record_same b s
    exact h.of_state (by rw [beginClosing_reports]) hOther (by rw [hRecord]) (by simp [hState trivial, BayState.ended])
      (by rw [hRecord]; simp [BayState.ended])
  | aborting cause _ hState =>
    obtain ⟨n, l, hRecord, -⟩ := beginAborting_record b cause s
    exact h.of_state (by rw [(beginAborting_shared b cause s).2.2.1]) hOther (by rw [hRecord])
      (by obtain e | e | e := hState <;> simp [e, BayState.ended]) (by rw [hRecord]; simp [BayState.ended])
  | finish v _ hState =>
    have hHanded : CustodyOk (handReport b (buildReport b v (leavePlan b s)) (leavePlan b s)) := by
      refine h.hand (leavePlan_reports b s) (fun c hc => ?_)
        (h.none_of (by obtain e | e := hState <;> simp [e, BayState.ended])) (by rw [leavePlan_record_same]) _
      rw [State.record, leavePlan_bay_other s hc]; rfl
    rw [finishBay_eq]
    exact hHanded.congr (cellStopCheck_reports _) fun c => by rw [cellStopCheck_record]; exact ⟨rfl, rfl⟩
  | release _ hState hReport =>
    exact h.of_own (b := b) rfl hOther (by simp) (by simp [hReport]) (by simp [hReport, BayState.ended])
  | clear _ hState =>
    have hNot : (s.record b).reportStatus ≠ .waiting := fun e => by have := h.finished b e; rw [hState] at this; cases this
    refine h.of_own (b := b) rfl hOther ?_ ?_ ?_
    · simp [hNot, enterEmpty, BayRecord.cleared, BayRecord.reset]
    · simp [enterEmpty, BayRecord.cleared, BayRecord.reset]
    · simp [enterEmpty, BayRecord.cleared, BayRecord.reset, BayState.ended]

theorem custodyOk_powerOn (s : State) : CustodyOk (powerOn s) where
  listed c := by rw [powerOn_record, powerOn_reports]; exact iff_of_false List.not_mem_nil (by simp [BayRecord.reset])
  once := List.nodup_nil
  finished c h := by rw [powerOn_record] at h; cases h
  status c := by rw [powerOn_record]; simp [BayRecord.reset]

/-- The head of the waiting list is committed. -/
theorem CustodyOk.take (h : CustodyOk s) : CustodyOk (takeHead s) := by
  have hRecord := takeHead_record s
  cases hWaiting : s.reports.waiting with
  | nil =>
    refine ⟨fun c => ?_, ?_, fun c => ?_, fun c => ?_⟩
    all_goals simp only [takeHead_reports, hWaiting, hRecord, List.head?_nil, Option.map_none, reduceCtorEq, if_false]
    · rw [← h.listed, hWaiting]
    · exact List.nodup_nil
    · exact h.finished c
    · exact h.status c
  | cons w ws =>
    have hOnce := h.once
    have hListed := h.listed
    rw [hWaiting, List.map_cons] at hOnce
    simp only [hWaiting, List.map_cons, List.mem_cons] at hListed
    obtain ⟨hNot, hRest⟩ := List.nodup_cons.mp hOnce
    have hOther : ∀ c, c ≠ w.bay → (takeHead s).record c = s.record c := fun c hc => by
      rw [hRecord, hWaiting, if_neg]; simpa using Ne.symm hc
    have hSame : (takeHead s).record w.bay = { s.record w.bay with reportStatus := .committed } := by
      exact (hRecord _).trans (by rw [hWaiting]; exact if_pos rfl)
    have hFinished : (s.record w.bay).state = .finished := h.finished _ ((hListed w.bay).mp (.inl rfl))
    have hList : (takeHead s).reports.waiting = ws := by rw [takeHead_reports, hWaiting]
    refine ⟨fun c => ?_, by rw [hList]; exact hRest, fun c => ?_, fun c => ?_⟩ <;> by_cases hc : c = w.bay
    · subst hc; rw [hSame, hList]; exact iff_of_false hNot (by simp)
    · rw [hOther c hc, hList, ← hListed]; simp [hc]
    · subst hc; rw [hSame]; simp
    · rw [hOther c hc]; exact h.finished c
    · subst hc; rw [hSame]; simp [hFinished]
    · rw [hOther c hc]; exact h.status c

theorem CustodyOk.of_effect {e : Prop} (h : CustodyOk s) (hEffect : Effect e s t) : CustodyOk t := by
  cases hEffect with
  | reset => exact custodyOk_powerOn s
  | take => exact h.take
  | _ => exact h.congr rfl fun _ => ⟨rfl, rfl⟩

/-- Settles O12. -/
theorem reportCustodyIsKept : Obligations.ReportCustodyIsKept := fun _ _ hSteps hs hStep =>
  hSteps.step_keep (fun _ _ h => h.congr rfl fun _ => ⟨rfl, rfl⟩) (fun _ _ h hs => hs.of_effect h) (fun _ _ _ h hs => hs.of_move h) hs hStep

end Sys2Proof.Machine
end

section
/-! PROOF. Every step keeps the reference counts equal to the bays that walk the plan, and the cell state to the bays under test (R1, R2,
R39, R41). -/

namespace Sys2Proof.Machine

variable {b : BayId} {g d : Prop} {s t : State} {n : Nat}

/-! ## The bays that walk a plan -/

/-- Bay `c` is under test and walks plan `n`. -/
def walks (n : Nat) (s : State) (c : BayId) : Bool := (s.record c).state.sequenced && (s.record c).planNumber == some n

/-- With the others unmoved, the number of walkers follows bay `b`. -/
theorem walkersOf_follows (hOther : ∀ c, c ≠ b → walks n t c = walks n s c) :
    walkersOf t n + (walks n s b).toNat = walkersOf s n + (walks n t b).toNat := by
  have hSplit : ∀ u : State, walkersOf u n = (allBays.erase b).countP (walks n u) + (walks n u b).toNat := fun u => by
    have hPerm : allBays.Perm (b :: allBays.erase b) := List.perm_cons_erase (by cases b <;> decide)
    refine (hPerm.countP_eq _).trans ?_
    rw [List.countP_cons]
    cases h : walks n u b
    · rw [if_neg (by rw [← Bool.not_eq_true] at h; exact h)]; rfl
    · rw [if_pos (by exact h)]; rfl
  have hSame : (allBays.erase b).countP (walks n t) = (allBays.erase b).countP (walks n s) :=
    List.countP_congr fun c hc => by
      rw [hOther c fun e => by subst e; revert hc; cases c <;> decide]
  rw [hSplit, hSplit, hSame]
  omega

theorem walkersOf_congr (h : ∀ c, walks n t c = walks n s c) : walkersOf t n = walkersOf s n :=
  List.countP_congr fun c _ => by rw [show ((t.record c).state.sequenced && (t.record c).planNumber == some n) = _ from h c]; rfl

theorem anySequenced_congr (h : ∀ c, (t.record c).state.sequenced = (s.record c).state.sequenced) : anySequenced t = anySequenced s := by
  unfold anySequenced
  simp only [h]

/-! ## Moves that leave the references -/

/-- The bays under test and their plans stay, and so do the tables and the cell state. -/
theorem ReferencesOk.congr (hs : ReferencesOk s) (hEntry : ∀ n, t.store.entry n = s.store.entry n)
    (hVariants : t.store.variants = s.store.variants) (hCell : t.cell.state = s.cell.state)
    (hSequenced : ∀ c, (t.record c).state.sequenced = (s.record c).state.sequenced)
    (hPlan : ∀ c, (s.record c).state.sequenced = true → (t.record c).planNumber = (s.record c).planNumber) : ReferencesOk t where
  variants v hv := by rw [hEntry]; exact hs.variants v (hVariants ▸ hv)
  counts n hn := by
    rw [hEntry, hs.counts n hn]
    refine (walkersOf_congr fun c => ?_).symm
    unfold walks
    rw [hSequenced]
    cases h : (s.record c).state.sequenced
    · rfl
    · rw [hPlan c h]
  unused n hn h := by rw [hEntry] at h ⊢; exact hs.unused n hn h
  stopped h := by rw [anySequenced_congr hSequenced]; exact hs.stopped (hCell ▸ h)
  stopping h := by rw [anySequenced_congr hSequenced]; exact hs.stopping (hCell ▸ h)

theorem ReferencesOk.of_own (hs : ReferencesOk s) (hEntry : ∀ n, t.store.entry n = s.store.entry n)
    (hVariants : t.store.variants = s.store.variants) (hCell : t.cell.state = s.cell.state)
    (hOther : ∀ c, c ≠ b → (t.record c).core = (s.record c).core)
    (hSequenced : (t.record b).state.sequenced = (s.record b).state.sequenced)
    (hPlan : (s.record b).state.sequenced = true → (t.record b).planNumber = (s.record b).planNumber) : ReferencesOk t := by
  refine hs.congr hEntry hVariants hCell (fun c => ?_) fun c => ?_ <;> by_cases hc : c = b
  · subst hc; exact hSequenced
  · obtain ⟨hState, -⟩ := BayRecord.of_core (hOther c hc)
    rw [hState]
  · subst hc; exact hPlan
  · obtain ⟨-, -, -, hNumber, -⟩ := BayRecord.of_core (hOther c hc)
    exact fun _ => hNumber

theorem ReferencesOk.of_record (hs : ReferencesOk s) (hStore : t.store = s.store) (hCell : t.cell = s.cell)
    (hOther : ∀ c, c ≠ b → (t.record c).core = (s.record c).core)
    (hSequenced : (t.record b).state.sequenced = (s.record b).state.sequenced)
    (hPlan : (s.record b).state.sequenced = true → (t.record b).planNumber = (s.record b).planNumber) : ReferencesOk t :=
  hs.of_own (fun n => by rw [hStore]) (by rw [hStore]) (by rw [hCell]) hOther hSequenced hPlan

/-! ## A reference taken and given up (R12, R39, R71) -/

theorem entry_setEntry_count (st : PlanStore) (hn : isPlanNumber n = true) (k : Nat) (m : Nat) :
    ((st.setEntry n { st.entry n with refCount := k }).entry m).state = (st.entry m).state ∧
    ((st.setEntry n { st.entry n with refCount := k }).entry m).refCount = if m = n then k else (st.entry m).refCount := by
  by_cases hm : m = n
  · subst hm; rw [PlanStore.entry_setEntry_same _ _ hn, if_pos rfl]; exact ⟨rfl, rfl⟩
  · rw [PlanStore.entry_setEntry_other _ _ hm, if_neg hm]; exact ⟨rfl, rfl⟩

theorem ReferencesOk.start (hs : ReferencesOk s) {v : VariantEntry} (hState : (s.record b).state = .loaded)
    (hCell : s.cell.state = .running) (hVariant : v ∈ s.store.variants) : ReferencesOk (beginPlan b v s) := by
  obtain ⟨l, hRecord⟩ := beginPlan_record_same b v s
  have hStore := beginPlan_store b v s
  obtain ⟨hn, hReady⟩ := hs.variants v hVariant
  have hEntry := entry_setEntry_count s.store hn ((s.store.entry v.plan).refCount + 1)
  rw [← hStore] at hEntry
  have hOther : ∀ m c, c ≠ b → walks m (beginPlan b v s) c = walks m s c := fun m c hc => by
    unfold walks
    rw [State.record, beginPlan_bay_other _ _ hc]; rfl
  have hOld : ∀ m, walks m s b = false := fun m => by unfold walks; rw [hState]; rfl
  have hNew : ∀ m, walks m (beginPlan b v s) b = decide (m = v.plan) := fun m => by
    unfold walks
    rw [hRecord]
    by_cases hm : m = v.plan
    · simp [hm, BayState.sequenced]
    · simp [hm, BayState.sequenced, Ne.symm hm]
  refine ⟨fun w hw => ?_, fun m hm => ?_, fun m hm h => ?_, fun h => ?_, fun h => ?_⟩
  · have hw' : w ∈ s.store.variants := by rw [hStore] at hw; simpa using hw
    rw [(hEntry _).1]
    exact hs.variants w hw'
  · have hWalkers := walkersOf_follows (n := m) (hOther m)
    rw [hOld, hNew] at hWalkers
    have hCount := hs.counts m hm
    rw [(hEntry m).2]
    by_cases hmv : m = v.plan
    · subst hmv; rw [if_pos rfl]; simp at hWalkers; omega
    · rw [if_neg hmv]; simp [hmv] at hWalkers; omega
  · rw [(hEntry m).1] at h
    have hmv : m ≠ v.plan := by rintro rfl; rw [hReady] at h; obtain h | h := h <;> cases h
    rw [(hEntry m).2, if_neg hmv]
    exact hs.unused m hm h
  · rw [beginPlan_cell, hCell] at h; cases h
  · rw [beginPlan_cell, hCell] at h; cases h

/-- Entries of plans after the reference on plan `n` is given up. -/
theorem entry_unreferenced (st : PlanStore) (hn : isPlanNumber n = true) (m : Nat) :
    ((st.unreferenced n).entry m).refCount = (if m = n then (st.entry m).refCount - 1 else (st.entry m).refCount) ∧
    ((st.entry m).state ≠ .retiring → ((st.unreferenced n).entry m).state = (st.entry m).state) ∧
    (((st.unreferenced n).entry m).state = .empty ∨ ((st.unreferenced n).entry m).state = .loading →
      (st.entry m).state = .empty ∨ (st.entry m).state = .loading ∨ ((st.unreferenced n).entry m).refCount = 0) := by
  by_cases hm : m = n
  · subst hm
    rw [PlanStore.entry_unreferenced_same _ hn, if_pos rfl]
    split
    · next h => exact ⟨by simp; omega, fun e => absurd h.1 e, fun _ => .inr (.inr rfl)⟩
    · exact ⟨rfl, fun _ => rfl, fun e => e.imp id .inl⟩
  · rw [PlanStore.entry_unreferenced_other _ hm, if_neg hm]
    exact ⟨rfl, fun _ => rfl, fun e => e.imp id .inl⟩

theorem ReferencesOk.finish (hs : ReferencesOk s) (v : FinalVerdict) (hState : (s.record b).state = .closing ∨ (s.record b).state = .aborting) :
    ReferencesOk (finishBay b v s) := by
  have hSequenced : (s.record b).state.sequenced = true := by obtain e | e := hState <;> rw [e] <;> rfl
  have hOther : ∀ m c, c ≠ b → walks m (finishBay b v s) c = walks m s c := fun m c hc => by
    unfold walks
    rw [State.record, finishBay_bay_other _ _ hc]; rfl
  have hNew : ∀ m, walks m (finishBay b v s) b = false := fun m => by unfold walks; rw [finishBay_record_same]; rfl
  have hOld : ∀ m, walks m s b = decide ((s.record b).planNumber = some m) := fun m => by
    unfold walks
    rw [hSequenced]
    by_cases hm : (s.record b).planNumber = some m <;> simp [hm]
  have hStore := finishBay_store b v s
  have hVariants : (finishBay b v s).store.variants = s.store.variants := by
    rw [hStore]
    split
    · rfl
    · exact (PlanStore.unreferenced_tables ..).1
  have hEntries : ∀ m, isPlanNumber m = true → ((finishBay b v s).store.entry m).refCount =
        (if (s.record b).planNumber = some m then (s.store.entry m).refCount - 1 else (s.store.entry m).refCount) ∧
      ((s.store.entry m).state ≠ .retiring → ((finishBay b v s).store.entry m).state = (s.store.entry m).state) ∧
      (((finishBay b v s).store.entry m).state = .empty ∨ ((finishBay b v s).store.entry m).state = .loading →
        (s.store.entry m).state = .empty ∨ (s.store.entry m).state = .loading ∨ ((finishBay b v s).store.entry m).refCount = 0) :=
    fun m hm => by
    rw [hStore]
    cases hPlan : (s.record b).planNumber with
    | none => exact ⟨by simp, fun _ => rfl, fun e => e.imp id .inl⟩
    | some n =>
      by_cases hn : isPlanNumber n = true
      · have := entry_unreferenced s.store hn m
        simpa only [Option.some.injEq, eq_comm (a := n) (b := m)] using this
      · have hnm : m ≠ n := by rintro rfl; exact hn hm
        simp only [PlanStore.entry_unreferenced_other _ hnm, Option.some.injEq, Ne.symm hnm, if_false, true_and]
        exact ⟨fun _ => trivial, fun e => e.imp id .inl⟩
  have hAny : anySequenced (finishBay b v s) = true ↔ othersSequenced b s := anySequenced_finished (by rw [finishBay_record_same])
    fun c hc => by rw [State.record, finishBay_bay_other _ _ hc]; rfl
  obtain ⟨hLast, hNotLast⟩ := finishBay_cell b v s
  refine ⟨fun w hw => ?_, fun m hm => ?_, fun m hm h => ?_, fun h => ?_, fun h => ?_⟩
  · obtain ⟨hn, hReady⟩ := hs.variants w (hVariants ▸ hw)
    exact ⟨hn, ((hEntries _ hn).2.1 (by rw [hReady]; decide)).trans hReady⟩
  · have hWalkers := walkersOf_follows (n := m) (hOther m)
    rw [hOld, hNew] at hWalkers
    have hCount := hs.counts m hm
    rw [(hEntries m hm).1]
    by_cases hPlan : (s.record b).planNumber = some m
    · rw [if_pos hPlan]; simp [hPlan] at hWalkers; omega
    · rw [if_neg hPlan]; simp [hPlan] at hWalkers; omega
  · obtain e | e | e := (hEntries m hm).2.2 h
    · rw [(hEntries m hm).1, hs.unused m hm (.inl e)]; split <;> rfl
    · rw [(hEntries m hm).1, hs.unused m hm (.inr e)]; split <;> rfl
    · exact e
  · by_cases hStopping : s.cell.state = .stopping ∧ ¬othersSequenced b s
    · rw [← Bool.not_eq_true, hAny]; exact hStopping.2
    · have hGo : s.cell.state ≠ .stopping ∨ othersSequenced b s := by
        by_contra hNot
        rw [not_or, not_not] at hNot
        exact hStopping hNot
      rw [hNotLast hGo] at h
      have hNone := hs.stopped h
      rw [anySequenced_iff.mpr ⟨b, hSequenced⟩] at hNone
      cases hNone
  · by_cases hStopping : s.cell.state = .stopping ∧ ¬othersSequenced b s
    · rw [(hLast hStopping.1 hStopping.2).1] at h; cases h
    · have hGo : s.cell.state ≠ .stopping ∨ othersSequenced b s := by
        by_contra hNot
        rw [not_or, not_not] at hNot
        exact hStopping hNot
      rw [hNotLast hGo] at h
      exact hAny.mpr (hGo.resolve_left fun e => e h)

theorem ReferencesOk.of_move (hs : ReferencesOk s) (hMove : Move b True d s t) : ReferencesOk t := by
  have hOther : ∀ c, c ≠ b → (t.record c).core = (s.record c).core := fun c hc => hMove.core hc
  have hPlans := hMove.plans
  cases hMove with
  | still hFrame =>
    have hStore : { t.store with common := commonReset } = { s.store with common := commonReset } := congrArg Frame.store hFrame
    simp only [PlanStore.mk.injEq, and_true] at hStore
    obtain ⟨-, hDirectory, hVariants⟩ := hStore
    obtain ⟨hState, -, -, hPlan, -⟩ := BayRecord.of_core (frame_own hFrame).2.1
    exact hs.of_own (fun n => by rw [PlanStore.entry, hDirectory]; rfl) hVariants (by rw [show t.cell = s.cell from congrArg Frame.cell hFrame])
      hOther (by rw [hState]) fun _ => hPlan
  | drive => exact hs.of_record (b := b) rfl rfl hOther (by simp) (by simp)
  | config => exact hs.of_record (b := b) rfl rfl hOther (by rw [config_record]) (by rw [config_record]; simp)
  | manual => exact hs.of_record (b := b) rfl rfl hOther (by simp) (by simp)
  | unmanned => exact hs.of_record (b := b) rfl rfl hOther (by simp) (by simp)
  | load serial code _ hState =>
    exact hs.of_record (b := b) rfl rfl hOther (by simp [loadAxle, hState, BayState.sequenced]) (by simp [hState, BayState.sequenced])
  | start v _ hState _ hCell hVariant => exact hs.start hState hCell hVariant
  | divert cause _ hState =>
    exact hs.of_record (b := b) (by rw [divertBay_shared]) (by rw [divertBay_shared]) hOther
      (by rw [divertBay_record_same, hState]; rfl) (by simp [hState, BayState.sequenced])
  | post res =>
    obtain ⟨rs, v, e, hBay⟩ := postResult_bay_same b res s
    have hRecord : (postResult b res s).record b = { s.record b with results := rs, verdict := v, endRequest := e } :=
      congrArg Bay.record hBay
    exact hs.of_record (b := b) (by rw [(postResult_shared b res s).2.1]) (by rw [(postResult_shared b res s).1]) hOther
      (by rw [hRecord]) (by rw [hRecord]; simp)
  | held point _ hState =>
    exact hs.of_record (b := b) rfl rfl hOther (by simp [enterHeld, hState trivial, BayState.sequenced]) (by simp [enterHeld])
  | resume _ hState =>
    exact hs.of_record (b := b) rfl rfl hOther (by simp [beginResume, hState, BayState.sequenced]) (by simp [beginResume])
  | closing _ hState =>
    obtain ⟨l, hRecord⟩ := beginClosing_record_same b s
    exact hs.of_record (b := b) (beginClosing_store b s) (beginClosing_cell b s) hOther
      (by rw [hRecord, hState trivial]; rfl) (by rw [hRecord]; simp)
  | aborting cause _ hState =>
    obtain ⟨n, l, hRecord, -⟩ := beginAborting_record b cause s
    obtain ⟨hCell, hStore, -⟩ := beginAborting_shared b cause s
    exact hs.of_record (b := b) hStore hCell hOther (by rw [hRecord, sequenced_of_abortable hState]; rfl) (by rw [hRecord]; simp)
  | finish v _ hState => exact hs.finish v hState
  | release _ hState => exact hs.of_record (b := b) rfl rfl hOther (by simp [hState, BayState.sequenced]) (by simp)
  | clear _ hState =>
    exact hs.of_record (b := b) rfl rfl hOther (by simp [enterEmpty, hState, BayState.sequenced]) (by simp [hState, BayState.sequenced])

/-! ## The effects on plans and cell -/

/-- One plan changes that no variant names and nobody walks. -/
theorem ReferencesOk.of_plan (hs : ReferencesOk s) (hVariants : t.store.variants = s.store.variants) (hCell : t.cell = s.cell)
    (hBays : t.bays = s.bays) (hOthers : ∀ m, m ≠ n → t.store.entry m = s.store.entry m)
    (hNamed : ∀ v ∈ s.store.variants, v.plan ≠ n) (hCount : (t.store.entry n).refCount = (s.store.entry n).refCount)
    (hUnused : (t.store.entry n).state = .empty ∨ (t.store.entry n).state = .loading → (t.store.entry n).refCount = 0) :
    ReferencesOk t := by
  have hRecord : ∀ c, t.record c = s.record c := fun c => by rw [State.record, State.bay, hBays]; rfl
  refine ⟨fun v hv => ?_, fun m hm => ?_, fun m hm h => ?_, fun h => ?_, fun h => ?_⟩
  · rw [hVariants] at hv
    rw [hOthers _ (hNamed v hv)]
    exact hs.variants v hv
  · rw [walkersOf_congr (s := s) (t := t) fun c => by unfold walks; rw [hRecord], ← hs.counts m hm]
    by_cases hmn : m = n
    · subst hmn; exact hCount
    · rw [hOthers m hmn]
  · by_cases hmn : m = n
    · subst hmn; exact hUnused h
    · rw [hOthers m hmn] at h ⊢; exact hs.unused m hm h
  · rw [anySequenced_congr (s := s) (t := t) fun c => by rw [hRecord c]]; exact hs.stopped (hCell ▸ h)
  · rw [anySequenced_congr (s := s) (t := t) fun c => by rw [hRecord c]]; exact hs.stopping (hCell ▸ h)

/-- No variant names a plan that is not READY. -/
theorem ReferencesOk.not_named (hs : ReferencesOk s) (h : (s.store.entry n).state ≠ .ready) : ∀ v ∈ s.store.variants, v.plan ≠ n :=
  fun v hv e => h (by rw [← e]; exact (hs.variants v hv).2)

theorem not_named_of_named (h : s.store.named n = false) : ∀ v ∈ s.store.variants, v.plan ≠ n := fun v hv e => by
  have := (PlanStore.named_iff s.store n).mpr ⟨v, hv, e⟩
  rw [h] at this; cases this

theorem walkersOf_none (h : anySequenced s = false) : walkersOf s n = 0 := by
  refine List.countP_eq_zero.mpr fun c _ => ?_
  have hc : (s.record c).state.sequenced = false := by
    rw [← Bool.not_eq_true, anySequenced_iff] at h
    exact Bool.not_eq_true _ ▸ fun e => h ⟨c, e⟩
  simp [hc]

/-- With no bay under test, no variant and no reference, a cell that is not STOPPING is in order. -/
theorem referencesOk_blank (hVariants : t.store.variants = []) (hCount : ∀ m, isPlanNumber m = true → (t.store.entry m).refCount = 0)
    (hNone : anySequenced t = false) (hCell : t.cell.state ≠ .stopping) : ReferencesOk t where
  variants v hv := by rw [hVariants] at hv; cases hv
  counts m hm := by rw [hCount m hm, walkersOf_none hNone]
  unused m hm _ := hCount m hm
  stopped _ := hNone
  stopping h := absurd h hCell

theorem anySequenced_powerOn (s : State) : anySequenced (powerOn s) = false := by
  rw [← Bool.not_eq_true, anySequenced_iff]
  rintro ⟨c, hc⟩
  rw [powerOn_record] at hc
  cases hc

theorem ReferencesOk.of_effect {e : Prop} (hs : ReferencesOk s) (hEffect : Effect e s t) : ReferencesOk t := by
  cases hEffect with
  | same => exact hs
  | clock | settings | common | ports => exact hs.congr (fun _ => rfl) rfl rfl (fun _ => rfl) fun _ _ => rfl
  | reset =>
    refine referencesOk_blank (by rw [powerOn_store]; rfl) (fun m hm => ?_) (anySequenced_powerOn s) ?_
    · rw [powerOn_store, entry_reset]; rfl
    · rw [powerOn_cell]; decide
  | cellState c h =>
    refine ⟨hs.variants, hs.counts, hs.unused, fun hc => ?_, fun hc => ?_⟩ <;> replace hc : c = _ := hc <;> subst hc
    · obtain h | ⟨-, h⟩ := h
      · cases h
      · split at h
        · cases h
        · next hNone => exact Bool.not_eq_true _ ▸ hNone
    · obtain h | ⟨-, h⟩ := h
      · cases h
      · split at h
        · assumption
        · cases h
  | cleared h =>
    exact referencesOk_blank rfl (fun m hm => congrArg PlanEntry.refCount (entry_cleared s.store hm)) (hs.stopped h) (by simp [h])
  | opened n hn hEmpty =>
    have hEntry := PlanStore.entry_setEntry_same s.store { s.store.entry n with state := .loading } hn
    refine hs.of_plan (n := n) (by simp [withStore]) rfl rfl (fun m hm => PlanStore.entry_setEntry_other _ _ hm)
      (hs.not_named (by rw [hEmpty]; decide)) (by rw [withStore, hEntry]) fun _ => ?_
    rw [withStore, hEntry]
    exact hs.unused n hn (.inl hEmpty)
  | written => exact hs.congr (fun _ => rfl) rfl rfl (fun _ => rfl) fun _ _ => rfl
  | published n head flag visited total hn hLoading =>
    have hEntry := PlanStore.entry_publish_same s.store head flag visited total hn
    refine hs.of_plan (n := n) (PlanStore.publish_tables ..).1 rfl rfl (fun m hm => PlanStore.entry_publish_other _ _ _ _ _ hm)
      (hs.not_named (by rw [hLoading]; decide)) ?_ fun _ => ?_
    · rw [withStore, hEntry, hs.unused n hn (.inr hLoading)]
    · rw [withStore, hEntry]
  | emptied n ps hn h =>
    have hEntry : (s.store.emptyPlan n).entry n = (s.store.entry n).emptied := PlanStore.entry_emptyPlan_same _ hn
    have hZero : (s.store.entry n).refCount = 0 := h.elim (fun h => hs.unused n hn (.inr h)) fun h => h.2.2
    refine hs.of_plan (n := n) (by simp [withStore]) rfl rfl (fun m hm => PlanStore.entry_emptyPlan_other _ hm) ?_ ?_ fun _ => ?_
    · exact h.elim (fun h => hs.not_named (by rw [h]; decide)) fun h => not_named_of_named h.2.1
    · rw [hZero]; exact congrArg PlanEntry.refCount hEntry
    · exact congrArg PlanEntry.refCount hEntry
  | retired n hn hReady hNamed =>
    have hEntry := PlanStore.entry_setEntry_same s.store { s.store.entry n with state := .retiring } hn
    refine hs.of_plan (n := n) (by simp [withStore]) rfl rfl (fun m hm => PlanStore.entry_setEntry_other _ _ hm)
      (not_named_of_named hNamed) (by rw [withStore, hEntry]) fun h => ?_
    rw [withStore, hEntry] at h
    obtain h | h := h <;> cases h
  | variant v hn hReady =>
    refine ⟨fun w hw => ?_, hs.counts, hs.unused, hs.stopped, hs.stopping⟩
    obtain rfl | hw := mem_insertVariant hw
    · exact ⟨hn, hReady⟩
    · exact hs.variants w hw
  | unvariant code => exact ⟨fun w hw => hs.variants w (List.mem_of_mem_filter hw), hs.counts, hs.unused, hs.stopped, hs.stopping⟩
  | take =>
    have hRecord := takeHead_record s
    refine hs.congr (fun n => by rw [takeHead_store]) (by rw [takeHead_store]) (by rw [takeHead_cell]) (fun c => ?_) fun c _ => ?_
    · rw [hRecord]; split <;> rfl
    · rw [hRecord]; split <;> rfl

/-- Settles O9. -/
theorem referenceCountsMatchWalkers : Obligations.ReferenceCountsMatchWalkers := fun _ _ hSteps hs hStep =>
  hSteps.step_keep (fun _ _ h => h.congr (fun _ => rfl) rfl rfl (fun _ => rfl) fun _ _ => rfl) (fun _ _ h hs => hs.of_effect h)
    (fun _ _ _ h hs => hs.of_move h) hs hStep

end Sys2Proof.Machine
end

section
/-! PROOF. Every step keeps the owners admitted and the drives within the limits that their owners set (R6, R71, R75, R76, R79, R80, R89 to
R93). -/

namespace Sys2Proof.Machine

variable {b : BayId} {g d : Prop} {s t : State}

/-! ## One bay -/

/-- Owner, configuration and drive of one bay are in order. -/
structure DriveOk (c : BayConfig) (r : BayRecord) (d : DriveLink) : Prop where
  owner : ownerAdmitted r.state r.owner = true
  config : c.Ok
  drive : d.Ok c.speedLimit r.owner r.state

theorem drivesOk_iff : DrivesOk s ↔ ∀ b, DriveOk (s.bay b).config (s.record b) (s.bay b).drive :=
  ⟨fun h b => ⟨h.owner b, h.config b, h.drive b⟩, fun h => ⟨fun b => (h b).owner, fun b => (h b).config, fun b => (h b).drive⟩⟩

section DriveOk
variable {c c' : BayConfig} {r r' : BayRecord} {dl dl' : DriveLink}

theorem DriveOk.congr (h : DriveOk c r dl) (hState : r'.state = r.state) (hOwner : r'.owner = r.owner) (hConfig : c' = c)
    (hDrive : dl'.core = dl.core) : DriveOk c' r' dl' where
  owner := by rw [hState, hOwner]; exact h.owner
  config := by rw [hConfig]; exact h.config
  drive := by rw [hState, hOwner, hConfig]; exact h.drive.congr hDrive

/-- A bay goes from one state to another that is as much a wind-down, its owner, configuration and drive as they were. -/
theorem DriveOk.of_state (h : DriveOk c r dl) (hOwner : r'.owner = r.owner) (hConfig : c' = c) (hDrive : dl' = dl)
    (hAdmitted : ownerAdmitted r.state r.owner = true → ownerAdmitted r'.state r.owner = true)
    (hWinding : (r'.state = .closing ∨ r'.state = .aborting) ↔ (r.state = .closing ∨ r.state = .aborting)) : DriveOk c' r' dl' where
  owner := by rw [hOwner]; exact hAdmitted h.owner
  config := by rw [hConfig]; exact h.config
  drive := by
    rw [hOwner, hConfig, hDrive]
    exact { h.drive with winding := h.drive.winding.trans hWinding.symm }

/-- In order under a given owner. -/
theorem DriveOk.of_owner {o : Owner} (hOwner : r.owner = o) (hAdmitted : ownerAdmitted r.state o = true) (hConfig : c.Ok)
    (hDrive : dl.Ok c.speedLimit o r.state) : DriveOk c r dl := by
  subst hOwner
  exact ⟨hAdmitted, hConfig, hDrive⟩

theorem DriveOk.sequencer (h : DriveOk c r dl) (hState : r.state.sequenced = true) : r.owner = .sequencer := by
  have hAdmitted := h.owner
  cases hs : r.state <;> rw [hs] at hState hAdmitted
  case running | held | closing | aborting => exact of_decide_eq_true hAdmitted
  case empty | loaded | finished | unloading => cases hState

/-- An owner CELL has a bay in EMPTY or LOADED, out of every step and wind-down. -/
theorem DriveOk.resting_of_cell (h : DriveOk c r dl) (hOwner : r.owner = .cell) : r.state = .empty ∨ r.state = .loaded := by
  have hAdmitted := h.owner
  rw [hOwner] at hAdmitted
  cases hs : r.state <;> rw [hs] at hAdmitted
  case empty => exact .inl rfl
  case loaded => exact .inr rfl
  all_goals cases hAdmitted

theorem DriveOk.line_of_loaded (h : DriveOk c r dl) (hState : r.state = .loaded) (hOwner : r.owner ≠ .cell) : r.owner = .line := by
  have hAdmitted := h.owner
  rw [hState] at hAdmitted
  cases ho : r.owner
  case line => rfl
  case cell => exact absurd ho hOwner
  case sequencer => rw [ho] at hAdmitted; cases hAdmitted

end DriveOk

/-- Bay `b` is in order after it has moved, and no other bay's drive side has. -/
theorem DrivesOk.of_own (h : DrivesOk s) (hOther : ∀ c, c ≠ b → (t.bay c).seen false = (s.bay c).seen false)
    (hOwn : DriveOk (t.bay b).config (t.record b) (t.bay b).drive) : DrivesOk t := by
  rw [drivesOk_iff] at h ⊢
  intro c
  by_cases hc : c = b
  · exact hc ▸ hOwn
  · obtain ⟨hConfig, hRecord, hDrive, -⟩ := Bay.seen_other (hOther c hc)
    obtain ⟨hState, hOwner, -⟩ := BayRecord.of_core (BayRecord.core_of_ungranted hRecord)
    exact (h c).congr hState hOwner hConfig (by rw [hDrive])

/-! ## The moves -/

theorem beginPlan_blocks (b : BayId) (v : VariantEntry) (s : State) : ((beginPlan b v s).bay b).config = (s.bay b).config ∧
    ((beginPlan b v s).bay b).drive = { (s.bay b).drive with enable := true, target := 0, x := 0 } := by
  simp only [beginPlan, refreshLines_config, refreshLines_drive]
  simp only [mapDrive_bay_same, mapSensor_config, mapSensor_drive, setBayState_config, setOwner_config, setBayState_drive, setOwner_drive,
    mapRecord_config, mapRecord_drive]
  exact ⟨rfl, rfl⟩

theorem beginClosing_blocks (b : BayId) (s : State) : ((beginClosing b s).bay b).config = (s.bay b).config ∧
    ((beginClosing b s).bay b).drive = { (s.bay b).drive with target := 0, rampRate := s.cell.stopRamp, windDown := .inProgress s.now } := by
  simp only [beginClosing, refreshLines_config, refreshLines_drive, startWindDown]
  simp only [mapDrive_bay_same, setBayState_config, setBayState_drive, mapRecord_config, mapRecord_drive]
  exact ⟨trivial, rfl⟩

section DriveLinkOk
variable {dl dl' : DriveLink} {limit limit' : Nat} {o : Owner} {st st' : BayState}

/-- A drive under the sequencer that winds down. -/
theorem DriveLink.Ok.windDown (h : dl.Ok limit .sequencer st)
    (hTarget : dl'.target = 0) (hx : dl'.x = dl.x) (hEnable : dl'.enable = dl.enable) (hJog : dl'.jogTarget = dl.jogTarget)
    (hMissed : dl'.missed = dl.missed) (hWind : dl'.windDown ≠ .none) (hState : st' = .closing ∨ st' = .aborting) :
    dl'.Ok limit .sequencer st' where
  target := by rw [hTarget]; exact Nat.zero_le _
  setpoint := by rw [hx]; exact h.setpoint
  line := nofun
  sequencer := by rw [hEnable, hJog]; exact h.sequencer
  manual := nofun
  jog := by rw [hJog]; exact h.jog
  missed := by rw [hMissed, hEnable]; exact h.missed
  winding := iff_of_true hWind hState

/-- A drive at a standstill for the owner LINE. -/
theorem DriveLink.Ok.halted (h : dl.Ok limit o st) (hJog : dl.jogTarget = 0) (hState : ¬(st' = .closing ∨ st' = .aborting)) :
    dl.halt.Ok limit' .line st' where
  target := Nat.zero_le _
  setpoint := Nat.zero_le _
  line _ := ⟨rfl, rfl, rfl, hJog⟩
  sequencer := nofun
  manual := nofun
  jog := h.jog
  missed := ⟨Nat.zero_le _, fun _ => rfl⟩
  winding := iff_of_false (fun hc => hc rfl) hState

/-- The idle drive of the owner LINE is in order for the owner CELL. -/
theorem DriveLink.Ok.unjogged (h : dl.Ok limit .line st) : dl.Ok limit .cell st := by
  obtain ⟨hEnable, hTarget, hx, hJog⟩ := h.line rfl
  exact { h with
    line := nofun
    sequencer := nofun
    manual := fun _ => ⟨hTarget.trans hJog.symm, by simp [hEnable, hx, hJog]⟩ }

/-- The idle drive of the owner LINE is enabled at 0 for the sequencer (R80). -/
theorem DriveLink.Ok.started (h : dl.Ok limit .line st) (hOld : ¬(st = .closing ∨ st = .aborting))
    (hNew : ¬(st' = .closing ∨ st' = .aborting)) : { dl with enable := true, target := 0, x := 0 }.Ok limit .sequencer st' where
  target := Nat.zero_le _
  setpoint := Nat.zero_le _
  line := nofun
  sequencer _ := ⟨rfl, (h.line rfl).2.2.2⟩
  manual := nofun
  jog := h.jog
  missed := ⟨h.missed.1, nofun⟩
  winding := iff_of_false (mt h.winding.mp hOld) hNew

theorem DriveLink.Ok.aborted (h : dl.Ok limit .sequencer st) (ramp : Nat) (now : Time) :
    (abortDrive (st = .closing) ramp now dl).Ok limit .sequencer .aborting := by
  unfold abortDrive
  split
  · next hClosing =>
    exact { h with
      line := nofun, manual := nofun
      winding := iff_of_true (h.winding.mpr (.inl hClosing)) (.inr rfl) }
  · exact h.windDown rfl rfl rfl rfl rfl WindDown.noConfusion (.inr rfl)

end DriveLinkOk

theorem DrivesOk.of_move (h : DrivesOk s) (hMove : Move b True True s t) : DrivesOk t := by
  have hOk := drivesOk_iff.mp h b
  refine h.of_own (b := b) (fun c hc => hMove.seen hc) ?_
  cases hMove with
  | still hFrame =>
    obtain ⟨hConfig, hRecord, hDrive⟩ := frame_own hFrame
    obtain ⟨hState, hOwner, -⟩ := BayRecord.of_core hRecord
    exact hOk.congr hState hOwner hConfig hDrive
  | drive f _ hf =>
    rw [mapDrive_recordOf, mapDrive_bay_same]
    exact ⟨hOk.owner, hOk.config, hf trivial trivial hOk.owner hOk.drive⟩
  | config c _ hState hc =>
    obtain ⟨hEmpty, hLine⟩ := hState
    obtain ⟨-, hTarget, hx, -⟩ := hOk.drive.line hLine
    rw [config_record, mapBay_bay_same]
    exact ⟨hOk.owner, hc, { hOk.drive with
      target := by rw [hTarget]; exact Nat.zero_le _
      setpoint := by rw [hx]; exact Nat.zero_le _ }⟩
  | manual _ hState hOwner =>
    have hDrive := hOk.drive
    rw [hOwner] at hDrive
    rw [setOwner_config, setOwner_drive, setOwner_record_same]
    exact ⟨by obtain e | e := hState <;> rw [e] <;> rfl, hOk.config, hDrive.unjogged⟩
  | unmanned _ hOwner hJog =>
    rw [setOwner_config, setOwner_drive, setOwner_record_same, mapDrive_config, mapDrive_recordOf, mapDrive_bay_same]
    obtain e | e := hOk.resting_of_cell hOwner
    all_goals exact ⟨by rw [e]; rfl, hOk.config, hOk.drive.halted hJog (by simp [e])⟩
  | load serial code _ hState =>
    exact hOk.of_state (by simp [loadAxle, BayRecord.cleared]) (by simp [loadAxle]) (by simp [loadAxle]) (by simp [loadAxle, hState, ownerAdmitted])
      (by simp [loadAxle, hState])
  | start v _ hState hOwner =>
    obtain ⟨l, hRecord⟩ := beginPlan_record_same b v s
    obtain ⟨hConfig, hDrive⟩ := beginPlan_blocks b v s
    have hOld := hOk.drive
    rw [hOk.line_of_loaded hState hOwner] at hOld
    rw [hRecord, hConfig, hDrive]
    exact ⟨rfl, hOk.config, hOld.started (by simp [hState]) (by simp)⟩
  | divert cause _ hState hOwner =>
    have hBay := divertBay_bay b cause s
    refine hOk.of_state (by rw [divertBay_record_same]) (by rw [hBay]) (by rw [hBay]) (fun _ => ?_) (by simp [divertBay_record_same, hState])
    rw [divertBay_record_same, hOk.line_of_loaded hState hOwner]
    rfl
  | post res =>
    obtain ⟨rs, v, e, hBay⟩ := postResult_bay_same b res s
    have hRecord : (postResult b res s).record b = { s.record b with results := rs, verdict := v, endRequest := e } :=
      congrArg Bay.record hBay
    exact hOk.congr (by rw [hRecord]) (by rw [hRecord]) (by rw [hBay]) (by rw [hBay])
  | held point _ hState =>
    exact hOk.of_state (by simp [enterHeld]) (by simp [enterHeld]) (by simp [enterHeld])
      (by simp [enterHeld, hState trivial, ownerAdmitted]) (by simp [enterHeld, hState trivial])
  | resume _ hState =>
    exact hOk.of_state (by simp [beginResume]) (by simp [beginResume]) (by simp [beginResume])
      (by simp [beginResume, hState, ownerAdmitted]) (by simp [beginResume, hState])
  | closing _ hState =>
    obtain ⟨l, hRecord⟩ := beginClosing_record_same b s
    obtain ⟨hConfig, hDrive⟩ := beginClosing_blocks b s
    have hOld := hOk.drive
    have hOwner := hOk.sequencer (by rw [hState trivial]; rfl)
    rw [hOwner] at hOld
    rw [hRecord, hConfig, hDrive]
    exact .of_owner hOwner rfl hOk.config (hOld.windDown rfl rfl rfl rfl rfl WindDown.noConfusion (.inl rfl))
  | aborting cause _ hState =>
    obtain ⟨n, l, hRecord, -⟩ := beginAborting_record b cause s
    obtain ⟨hConfig, hDrive, -⟩ := beginAborting_blocks b cause s
    have hOld := hOk.drive
    have hOwner := hOk.sequencer (sequenced_of_abortable hState)
    rw [hOwner] at hOld
    rw [hRecord, hConfig, hDrive]
    exact .of_owner hOwner rfl hOk.config (hOld.aborted _ _)
  | finish v _ hState =>
    obtain ⟨hConfig, hDrive, -⟩ := finishBay_blocks b v s
    have hOwner := hOk.sequencer (by obtain e | e := hState <;> rw [e] <;> rfl)
    rw [finishBay_record_same, hConfig, hDrive]
    exact ⟨rfl, hOk.config, hOk.drive.halted (hOk.drive.sequencer hOwner).2 (by simp)⟩
  | release _ hState =>
    exact hOk.of_state (by simp) (by simp) (by simp) (by simp [hState, ownerAdmitted]) (by simp [hState])
  | clear _ hState =>
    exact hOk.of_state (by simp [enterEmpty, BayRecord.cleared]) (by simp [enterEmpty]) (by simp [enterEmpty])
      (fun hOwner => by rw [hState] at hOwner; simp [enterEmpty, ownerAdmitted, of_decide_eq_true hOwner]) (by simp [enterEmpty, hState])

/-! ## The effects -/

theorem DrivesOk.congr (h : DrivesOk s) (hBay : ∀ c, (t.bay c).config = (s.bay c).config ∧ (t.bay c).drive = (s.bay c).drive ∧
    (t.record c).state = (s.record c).state ∧ (t.record c).owner = (s.record c).owner) : DrivesOk t := by
  rw [drivesOk_iff] at h ⊢
  intro c
  obtain ⟨hConfig, hDrive, hState, hOwner⟩ := hBay c
  exact (h c).congr hState hOwner hConfig (by rw [hDrive])

theorem config_reset_ok : BayConfig.reset.Ok := ⟨by decide, by decide, by decide⟩

theorem drive_reset_ok : DriveLink.reset.Ok 1500 .line .empty :=
  ⟨by decide, by decide, fun _ => ⟨rfl, rfl, rfl, rfl⟩, nofun, nofun, by decide, ⟨by decide, fun _ => rfl⟩, by decide⟩

theorem drivesOk_powerOn (s : State) : DrivesOk (powerOn s) := by
  rw [drivesOk_iff]
  intro c
  rw [State.record, powerOn_bay]
  exact ⟨rfl, config_reset_ok, drive_reset_ok⟩

theorem DrivesOk.of_effect {e : Prop} (h : DrivesOk s) (hEffect : Effect e s t) : DrivesOk t := by
  cases hEffect with
  | reset => exact drivesOk_powerOn s
  | take =>
    refine h.congr fun c => ⟨takeHead_config s c, takeHead_drive s c, ?_⟩
    rw [takeHead_record]
    split <;> exact ⟨rfl, rfl⟩
  | _ => exact h.congr fun _ => ⟨rfl, rfl, rfl, rfl⟩

theorem DrivesOk.of_stirs {e : Prop} (h : DrivesOk s) (hStirs : Stirs True True e s t) : DrivesOk t :=
  hStirs.keep (fun _ _ h hs => hs.of_effect h) (fun _ _ _ h hs => hs.of_move h) h

/-! ## The millisecond (R73 to R79) -/

/-- The millisecond of a drive in manual: no step and no wind-down, so only the generator, enable and the message move it (R75). -/
theorem driveTick_cell (hOwner : (s.record b).owner = .cell) (hPhase : (s.record b).phase = .none)
    (hWind : (s.bay b).drive.windDown = .none) :
    driveTick b s = mapDrive b (fun dl => dl.generatorStep.manualEnable.settleMessage.sendMessage.ageReport) s := by
  have hManual : examineManual b (mapDrive b DriveLink.generatorStep s) =
      mapDrive b DriveLink.manualEnable (mapDrive b DriveLink.generatorStep s) := if_pos (by simpa using hOwner)
  rw [driveTick, examineRamp_idle (by simp [hPhase]) (by simp [hPhase]),
    examineEnding_idle (by simpa [DriveLink.generatorStep] using hWind), hManual, mapDrive_mapDrive, mapDrive_mapDrive] <;> rfl

theorem DriveLink.Ok.cellTick {dl : DriveLink} {limit : Nat} {st : BayState} (h : dl.Ok limit .cell st) :
    dl.generatorStep.manualEnable.settleMessage.sendMessage.ageReport.Ok limit .cell st :=
  (DriveLink.Ok.manualEnable (dl := dl.generatorStep) rfl h.target (generatorMove_natAbs _ h.setpoint h.target) (h.manual rfl).1 h.jog
    h.missed.1 h.winding).messaged

theorem DrivesOk.driveTick (h : DrivesOk s) (hSteps : StepsOk s) : DrivesOk (driveTick b s) := by
  by_cases hOwner : (s.record b).owner = .cell
  · have hOk := drivesOk_iff.mp h b
    have hState := hOk.resting_of_cell hOwner
    have hPhase := hSteps.phase_none (b := b) (by obtain e | e := hState <;> simp [e])
    have hWind : (s.bay b).drive.windDown = .none :=
      not_not.mp (mt hOk.drive.winding.mp (by obtain e | e := hState <;> simp [e]))
    have hDrive := hOk.drive
    rw [hOwner] at hDrive
    rw [driveTick_cell hOwner hPhase hWind]
    refine h.of_own (b := b) (fun c hc => by rw [mapDrive_bay_other _ _ hc]) ?_
    rw [mapDrive_recordOf, mapDrive_bay_same]
    exact .of_owner hOwner (hOwner ▸ hOk.owner) hOk.config hDrive.cellTick
  · exact (driveTick_moves s (fun _ => (hSteps.bay b).phaseRuns) fun _ => hOwner).keep (fun _ _ h hs => hs.of_move h) h

theorem DrivesOk.driveTicks (h : DrivesOk s) (hSteps : StepsOk s) (bs : List BayId) : DrivesOk (driveTicks bs s) := by
  unfold Machine.driveTicks
  induction bs generalizing s with
  | nil => exact h
  | cons b bs ih => exact ih (h.driveTick hSteps) hSteps.driveTick

theorem DrivesOk.exec (h : DrivesOk s) (hSteps : StepsOk s) {i : Instr} (hExec : Machine.exec i s = .next t) : DrivesOk t := by
  by_cases hTick : ∃ order, i = .millisecondTick order
  · obtain ⟨order, rfl⟩ := hTick
    cases hExec
    have hClock : DrivesOk (advanceTime s) := h.of_effect (e := False) .clock
    have hStepsClock : StepsOk (advanceTime s) := hSteps.of_shared rfl rfl
    exact (hClock.driveTicks hStepsClock _).of_stirs ((sensorTick_stirs (e := False) _).trans (Effect.ports _ False.elim).run)
  · exact h.of_stirs (Machine.exec_stirs hExec (fun order e => hTick ⟨order, e⟩) fun _ => hSteps.bay)

/-- Settles O10. -/
theorem drivesStayWithinLimits : Obligations.DrivesStayWithinLimits := by
  intro s t hSteps hs hStep
  obtain rfl | ⟨c, cs, -, hExec⟩ := step_exec hStep
  · exact hs
  · have hQueued : DrivesOk { s with pending := cs } := hs.congr fun _ => ⟨rfl, rfl, rfl, rfl⟩
    have hStepsQueued : StepsOk { s with pending := cs } := hSteps.of_shared rfl rfl
    exact hQueued.exec hStepsQueued hExec

end Sys2Proof.Machine
end

section
/-! PROOF. The values right after reset (R1, R3, R22, R33, R45, R72, R94, R164), the invariants there, and TAKE REPORT (R155 to R162). -/

namespace Sys2Proof.Machine

variable {b : BayId} {s t : State}

/-! ## Reset -/

theorem reset_bay (b : BayId) : State.reset.bay b = Bay.reset := by cases b <;> rfl

theorem unmasked_line (n : Notice) : unmasked (State.reset.port .line).mask n = true ↔ n.cls ≤ 5 := by
  cases n <;> simp [unmasked, Notice.cls, State.reset, State.port, Ports.get, Ports.reset, Port.reset]

theorem unmasked_cell (n : Notice) : unmasked (State.reset.port .cell).mask n = true := by
  cases n <;> simp [unmasked, Notice.cls, State.reset, State.port, Ports.get, Ports.reset, Port.reset]

theorem unmasked_archive (n : Notice) : unmasked (State.reset.port .archive).mask n = true ↔ 9 ≤ n.cls := by
  cases n <;> simp [unmasked, Notice.cls, State.reset, State.port, Ports.get, Ports.reset, Port.reset]

/-- Settles O2. -/
theorem resetGivesPowerOnValues : Obligations.ResetGivesPowerOnValues := by
  refine ⟨rfl, slotAt_reset, fun n _ => entry_reset n, rfl, fun i hi => ?_, fun i hi => ?_, fun b => ?_, rfl, rfl, rfl, fun p => ?_,
    fun n => ⟨unmasked_line n, unmasked_cell n, unmasked_archive n⟩, fun s => ?_⟩
  · exact (commonAt_reset (by omega)).trans (if_pos (by omega))
  · simp only [isCountdown, Bool.and_eq_true, decide_eq_true_eq] at hi
    exact (commonAt_reset hi.2).trans (if_neg (by omega))
  · simp only [State.record, State.buf, reset_bay]
    exact ⟨rfl, rfl, rfl, rfl, rfl, rfl, rfl, rfl, rfl, rfl, rfl, rfl, rfl, rfl, rfl, rfl, rfl, rfl, rfl, rfl, rfl,
      fun k => by cases k <;> exact ⟨rfl, rfl⟩, rfl, rfl⟩
  · cases p <;> exact ⟨rfl, rfl, rfl, rfl, rfl, rfl, rfl⟩
  · refine ⟨powerOn s, rfl, powerOn_cell s, powerOn_store s, ?_, ?_, powerOn_reports s, powerOn_ports s, ?_, fun b => ?_⟩
    · rfl
    · rfl
    · rfl
    · rw [powerOn_bay, State.record, State.record, reset_bay] <;> rfl

/-! ## The invariants -/

theorem reset_buf (b : BayId) (k : BufId) : State.reset.buf b k = ListenBuffer.reset := by
  rw [State.buf, reset_bay]; cases k <;> rfl

theorem manifoldOk_reset : ManifoldOk State.reset := fun b => by
  rw [State.record, reset_bay]
  exact iff_of_false nofun nofun

theorem reducerOk_reset : ReducerOk State.reset where
  queued b k := by rw [reset_buf]; exact iff_of_false List.not_mem_nil nofun
  once := List.nodup_nil
  reducing b k := by rw [reset_buf]; exact iff_of_false (fun ⟨_, h⟩ => nomatch h) nofun
  count b := by rw [reset_buf, reset_buf, State.record, reset_bay]; rfl

theorem verdictsOk_reset : VerdictsOk State.reset where
  running b := by rw [State.record, reset_bay]; rfl
  queued r hr := nomatch hr

theorem plansOk_reset : PlansOk State.reset := plansOk_blank slotAt_reset fun n _ => by
  show (PlanStore.reset.entry n).standing = _
  rw [entry_reset]; rfl

theorem referencesOk_reset : ReferencesOk State.reset :=
  referencesOk_blank rfl (fun m _ => by show (PlanStore.reset.entry m).refCount = 0; rw [entry_reset]; rfl)
    (anySequenced_powerOn State.reset) nofun

theorem settingsOk_reset : SettingsOk State.reset := by simp [SettingsOk, State.reset, CellControl.reset]

theorem framesOk_reset : FramesOk State.reset := framesOk_iff.mpr
  ⟨fun p => by cases p <;> exact ⟨nofun, nofun, Nat.zero_le _⟩, fun b bs h => by rw [State.record, reset_bay] at h; cases h⟩

/-- Settles O3. -/
theorem invariantsHoldAtReset : Obligations.InvariantsHoldAtReset :=
  ⟨manifoldOk_reset, reducerOk_reset, queueOk_reset rfl, ⟨Nat.zero_le _, .nil, nofun⟩, .of_reset rfl, settingsOk_reset, noticesOk_reset rfl,
    drivesOk_powerOn State.reset, plansOk_reset, referencesOk_reset, stepsOk_powerOn State.reset, verdictsOk_reset,
    custodyOk_powerOn State.reset, framesOk_reset⟩

/-! ## TAKE REPORT -/

/-- Two states whose cell, store, reducer, manifold and queue of commands are the same. -/
theorem State.eq_of_shared (hCell : t.cell = s.cell) (hStore : t.store = s.store) (hReducer : t.reducer = s.reducer)
    (hManifold : t.manifold = s.manifold) (hPending : t.pending = s.pending) :
    t = { s with bays := t.bays, reports := t.reports, ports := t.ports } := by
  cases t; cases s
  simp only at hCell hStore hReducer hManifold hPending
  rw [hCell, hStore, hReducer, hManifold, hPending]

theorem takeHead_shared (s : State) :
    takeHead s = { s with bays := (takeHead s).bays, reports := (takeHead s).reports, ports := (takeHead s).ports } :=
  State.eq_of_shared (takeHead_cell s) (takeHead_store s) (takeHead_reducer s) (takeHead_manifold s) (takeHead_pending s)

/-- A TAKE with nobody waiting is the backlog check without the head. -/
theorem takeHead_alone (h : s.reports.waiting = []) :
    takeHead s = backlogCheck { s with reports := { s.reports with queue := s.reports.queue.drop 1 } } := by
  simp only [takeHead, h]

/-- A TAKE with a bay waiting is its commit without the head. -/
theorem takeHead_waiting {w : WaitEntry} {ws : List WaitEntry} (h : s.reports.waiting = w :: ws) : takeHead s =
    commit w.bay w.report { s with reports := { s.reports with queue := s.reports.queue.drop 1, waiting := ws } } := by
  simp only [takeHead, h]

theorem commit_offered (b : BayId) (rep : Report) (s : State) :
    Offered (.readyToRelease b) (commit b rep s) ∧ Offered .reportAvailable (commit b rep s) ∧
    (s.reports.backlog = false → s.cell.backlogThreshold ≤ s.reports.queue.length + 1 → Offered .backlog (commit b rep s)) := by
  unfold commit
  exact ⟨.of_raise ((raise_raised ..).trans (backlogCheck_raised _)), .of_raise (backlogCheck_raised _),
    fun hMark hThreshold => offered_backlogCheck (by simpa using hMark) (by simpa using hThreshold)⟩

theorem takeReport_taken {r : Report} {rest : List Report} {n : Nat} (h : s.reports.queue = r :: rest) (hr : r.sequence = some n) :
    exec (.takeReport .archive n) s = .next (answered .archive (.takeReport .archive n) .ok (bytesOf 4 n ++
      bytesOf 1 (takeHead s).reports.queue.length ++ bytesOfOption 5 (committedByTake s.reports)) (takeHead s)) :=
  exec_accepted rfl (List.mem_singleton.mpr rfl) (by
    show runTakeReport n s = _
    simp only [runTakeReport, h, if_pos hr])

/-- Settles O60. -/
theorem takeReportCommitsNextWaiting : Obligations.TakeReportCommitsNextWaiting := by
  intro n s
  refine ⟨fun h => exec_refused rfl (List.mem_singleton.mpr rfl) ?_, fun r rest h => ⟨fun hr => ?_, fun hr => ⟨fun hw => ?_, fun w ws hw => ?_⟩⟩⟩
  · show runTakeReport n s = _
    simp only [runTakeReport, h]
  · refine exec_refused rfl (List.mem_singleton.mpr rfl) ?_
    show runTakeReport n s = _
    simp only [runTakeReport, h, if_neg hr]
  · have hReports : (takeHead s).reports =
        { s.reports with queue := rest, backlog := decide (s.cell.backlogThreshold ≤ rest.length) } := by
      rw [takeHead_reports, hw, h]; rfl
    refine ⟨takeHead s, ?_, hReports, fun hMark hThreshold => ?_, ?_, (takeHead_raised s).portsRaised⟩
    · rw [takeReport_taken h hr, hReports, committedByTake, hw]; rfl
    · rw [takeHead_alone hw, h]
      exact offered_backlogCheck hMark hThreshold
    · have hBays : (takeHead s).bays = s.bays := by rw [takeHead_alone hw, backlogCheck_bays]
      exact (takeHead_shared s).trans (by rw [hBays])
  · have hReports : (takeHead s).reports = {
        queue := rest ++ [{ w.report with sequence := some s.reports.nextSequence }]
        nextSequence := nextSequenceOf s.reports.nextSequence, waiting := ws
        backlog := decide (s.cell.backlogThreshold ≤ rest.length + 1) } := by
      rw [takeHead_waiting hw, commit_reports, h]; rfl
    obtain ⟨hReady, hAvailable, hBacklog⟩ := commit_offered w.bay w.report
      { s with reports := { s.reports with queue := s.reports.queue.drop 1, waiting := ws } }
    rw [← takeHead_waiting hw] at hReady hAvailable hBacklog
    refine ⟨takeHead s, ?_, by rw [hReports], by rw [hReports], ?_, by rw [hReports],
      fun hMark hThreshold => hBacklog hMark (by rw [h]; exact hThreshold), ?_, fun c hc => ?_, hReady, hAvailable, takeHead_shared s,
      (takeHead_raised s).portsRaised⟩
    · rw [takeReport_taken h hr, hReports, committedByTake, hw]
      simp [bytesOfOption]
    · rw [hReports]
      simp only [nextSequenceOf]
      split <;> split <;> omega
    · rw [takeHead_record, hw]; simp
    · rw [takeHead_waiting hw, commit_bay_other _ _ hc]; rfl

end Sys2Proof.Machine
end

section
/-! PROOF. The check over a frame with its check (R165), and the reduction arithmetic with the bound of the noise level (R125 to R128). -/

namespace Sys2Proof.Machine

/-! ## The frame check -/

/-- A register that takes its own top bit shifts out its top bit and combines nothing. -/
theorem crcBit_own (r : BitVec 16) : crcBit r (r.getLsbD 15) = r <<< 1 := by
  simp [crcBit]

/-- The bits of `r` fed to the register `r`, the top one first: each meets itself, so the register only shifts. -/
theorem foldl_crcBit_own (r : BitVec 16) {n : Nat} (hn : n ≤ 16) :
    ((List.range n).map fun i => r.getLsbD (15 - i)).foldl crcBit r = r <<< n := by
  induction n with
  | zero => simp
  | succ n ih =>
    have hTop : r.getLsbD (15 - n) = (r <<< n).getLsbD 15 := by
      rw [BitVec.getLsbD_shiftLeft]
      simp only [show 15 < 16 by omega, decide_true, show ¬15 < n by omega, decide_false, Bool.not_false, Bool.true_and]
    rw [List.range_succ, List.map_append, List.foldl_append, ih (by omega), List.map_singleton, List.foldl_cons, List.foldl_nil, hTop,
      crcBit_own, BitVec.shiftLeft_add]

theorem bitsOf_low (r : BitVec 16) : bitsOf (BitVec.ofNat 8 r.toNat) = (List.range 8).map fun i => r.getLsbD (7 - i) :=
  List.map_congr_left fun i _ => by
    rw [BitVec.getLsbD_ofNat, show decide (7 - i < 8) = true by simp; omega, Bool.true_and]; rfl

theorem bitsOf_high (r : BitVec 16) : bitsOf (BitVec.ofNat 8 (r.toNat / 256)) = (List.range 8).map fun i => r.getLsbD (15 - i) :=
  List.map_congr_left fun i hi => by
    have hi' := List.mem_range.mp hi
    rw [BitVec.getLsbD_ofNat, show decide (7 - i < 8) = true by simp; omega, Bool.true_and, show 256 = 2 ^ 8 from rfl,
      Nat.testBit_div_two_pow, show 15 - i = 7 - i + 8 by omega]
    rfl

/-- The two check bytes are the bits of the register, the top one first. -/
theorem bitsOf_check (r : BitVec 16) : (bytesOf 2 r.toNat).flatMap bitsOf = (List.range 16).map fun i => r.getLsbD (15 - i) := by
  show bitsOf (BitVec.ofNat 8 (r.toNat / 256)) ++ (bitsOf (BitVec.ofNat 8 r.toNat) ++ []) = _
  rw [bitsOf_high, bitsOf_low]
  rfl

theorem foldl_crcByte (bytes : List Byte) (r : BitVec 16) : bytes.foldl crcByte r = (bytes.flatMap bitsOf).foldl crcBit r := by
  rw [List.foldl_flatMap]; rfl

theorem crc_withCheck (bytes : List Byte) : crc (withCheck bytes) = 0#16 := by
  have hShift : (crc bytes) <<< 16 = 0#16 := BitVec.shiftLeft_eq_zero (Nat.le_refl 16)
  rw [crc, withCheck, List.foldl_append, foldl_crcByte (bytesOf ..), bitsOf_check, ← hShift]
  exact foldl_crcBit_own (crc bytes) (Nat.le_refl 16)

/-- Settles O16. -/
theorem frameCheckLeavesZero : Obligations.FrameCheckLeavesZero := ⟨Tests.test_check_of_digits, crc_withCheck⟩

/-! ## The tables (R126) -/

theorem cosT_mod (i : Nat) : cosT (i % 64) = cosT i := by
  simp only [cosT, Nat.mod_mod]

theorem sinT_mod (i : Nat) : sinT (i % 64) = sinT i := by
  rw [sinT, sinT, ← cosT_mod, ← cosT_mod (i + 48)]
  congr 1
  omega

theorem cosT_half_turn (i : Nat) : cosT (i + 32) = -cosT i := by
  have hTurn : ∀ j < 64, cosT (j + 32) = -cosT j := by decide
  have h := hTurn (i % 64) (Nat.mod_lt _ (by omega))
  rw [cosT_mod, ← cosT_mod] at h
  rw [← h, ← cosT_mod]
  congr 1
  omega

theorem cosT_second_quarter {i : Nat} (h : 17 ≤ i) (h' : i ≤ 32) : cosT i = -cosT (32 - i) := by
  have hLeft : i % 64 = i := Nat.mod_eq_of_lt (by omega)
  have hRight : (32 - i) % 64 = 32 - i := Nat.mod_eq_of_lt (by omega)
  simp only [cosT, cosineHalf, hLeft, hRight, if_pos h', if_neg (show ¬i ≤ 16 by omega), if_pos (show 32 - i ≤ 32 by omega),
    if_pos (show 32 - i ≤ 16 by omega)]

theorem cosT_second_half {i : Nat} (h : 33 ≤ i) (h' : i ≤ 63) : cosT i = cosT (64 - i) := by
  have hLeft : i % 64 = i := Nat.mod_eq_of_lt (by omega)
  have hRight : (64 - i) % 64 = 64 - i := Nat.mod_eq_of_lt (by omega)
  simp only [cosT, hLeft, hRight, if_neg (show ¬i ≤ 32 by omega), if_pos (show 64 - i ≤ 32 by omega)]

/-! ## The correlations (R125, R127) -/

theorem correlate_eq_sum (table : Nat → Int) (k q : Nat) (lanes : Vector Int Config.laneCount) :
    correlate table k q lanes = ∑ a : Fin Config.laneCount, laneAverage k lanes[a] * table (q * a.val) := by
  have hList : (lanes.toList.zipIdx.map fun p => laneAverage k p.1 * table (q * p.2)) =
      List.ofFn fun a : Fin Config.laneCount => laneAverage k lanes[a] * table (q * a.val) :=
    List.ext_getElem (by rw [List.length_map, List.length_zipIdx, Vector.length_toList, List.length_ofFn]) fun i h h' => by
      simp only [List.getElem_map, List.getElem_zipIdx, List.getElem_ofFn, Nat.zero_add, Vector.getElem_toList]; rfl
  rw [correlate, hList, List.sum_ofFn]

theorem laneAverage_bounds {k : Nat} {lane : Int} (hk : 1 ≤ k) (hLow : -32768 * 2 ^ k ≤ lane) (hHigh : lane ≤ 32767 * 2 ^ k) :
    -32768 ≤ laneAverage k lane ∧ laneAverage k lane ≤ 32767 ∧ 2 ^ k * laneAverage k lane ≤ lane + 2 ^ (k - 1) ∧
      lane + 2 ^ (k - 1) < 2 ^ k * (laneAverage k lane + 1) := by
  obtain ⟨j, rfl⟩ : ∃ j, k = j + 1 := ⟨k - 1, by omega⟩
  have hHalf : (0 : Int) < 2 ^ j := by positivity
  have hWhole : (2 : Int) ^ (j + 1) = 2 * 2 ^ j := by rw [pow_succ, mul_comm]
  simp only [laneAverage, Nat.add_sub_cancel]
  rw [hWhole] at hLow hHigh ⊢
  have hDiv := Int.mul_ediv_add_emod (lane + 2 ^ j) (2 * 2 ^ j)
  have hPos := Int.emod_nonneg (lane + 2 ^ j) (b := 2 * 2 ^ j) (by omega)
  have hLt := Int.emod_lt_of_pos (lane + 2 ^ j) (b := 2 * 2 ^ j) (by omega)
  refine ⟨Int.le_ediv_of_mul_le (by omega) (by omega), ?_, by omega, by rw [mul_add]; omega⟩
  exact Int.lt_add_one_iff.mp (Int.ediv_lt_of_lt_mul (by omega) (by omega))

/-- A weighted sum of lane averages is at most 32768 times the sum of the weights' sizes. -/
theorem abs_sum_le {v w : Fin Config.laneCount → Int} (h : ∀ a, |v a| ≤ 32768) :
    |∑ a, v a * w a| ≤ 32768 * ∑ a, |w a| :=
  calc |∑ a, v a * w a| ≤ ∑ a, |v a * w a| := Finset.abs_sum_le_sum_abs ..
    _ ≤ ∑ a, 32768 * |w a| := Finset.sum_le_sum fun a _ => by rw [abs_mul]; exact mul_le_mul_of_nonneg_right (h a) (abs_nonneg _)
    _ = 32768 * ∑ a, |w a| := (Finset.mul_sum ..).symm

/-! ## The bound of a level (R128) -/

/-- The sum over a revolution of the size of a mix of the two tables at order `q`. -/
def mixed (c t : Int) (q : Nat) : Int := ((List.range 64).map fun a => |c * cosT (q * a) + t * sinT (q * a)|).sum

theorem mixed_eq_sum (c t : Int) (q : Nat) :
    mixed c t q = ∑ a : Fin Config.laneCount, |c * cosT (q * a.val) + t * sinT (q * a.val)| := by
  rw [mixed, ← List.sum_ofFn]
  congr 1

/-- Twice one table and once the other sum up to at most 1,572,864 over a revolution; order 16 meets it. -/
theorem mixed_le : ∀ q ∈ List.range' 5 26, mixed 2 1 q ≤ 1572864 ∧ mixed 2 (-1) q ≤ 1572864 ∧ mixed 1 2 q ≤ 1572864 ∧
    mixed (-1) 2 q ≤ 1572864 := by
  decide +kernel

/-- A mix of the two correlations is bounded by the mix of the tables. -/
theorem abs_mix_correlate_le {k q : Nat} {lanes : Vector Int Config.laneCount} (h : ∀ a : Fin Config.laneCount, |laneAverage k lanes[a]| ≤ 32768)
    (c t : Int) : |c * correlate cosT k q lanes + t * correlate sinT k q lanes| ≤ 32768 * mixed c t q := by
  have hSum : c * correlate cosT k q lanes + t * correlate sinT k q lanes =
      ∑ a : Fin Config.laneCount, laneAverage k lanes[a] * (c * cosT (q * a.val) + t * sinT (q * a.val)) := by
    rw [correlate_eq_sum, correlate_eq_sum, Finset.mul_sum, Finset.mul_sum, ← Finset.sum_add_distrib]
    exact Finset.sum_congr rfl fun a _ => by ring
  rw [hSum, mixed_eq_sum]
  exact abs_sum_le h

theorem levelOf_le {c t n : Int} (h1 : |2 * c + 1 * t| ≤ 2 * n) (h2 : |2 * c + -1 * t| ≤ 2 * n) (h3 : |1 * c + 2 * t| ≤ 2 * n)
    (h4 : |-1 * c + 2 * t| ≤ 2 * n) (hn : n ≤ 25769803776) : 0 ≤ levelOf c t ∧ levelOf c t ≤ 49152 := by
  rw [abs_le] at h1 h2 h3 h4
  simp only [levelOf]
  omega

/-- Settles O19. -/
theorem noiseLevelIsBounded : Obligations.NoiseLevelIsBounded := by
  refine ⟨⟨by decide, fun i => cosT_second_quarter, fun i => cosT_second_half,
    fun i => ⟨(cosT_mod i).symm, (cosT_mod (i + 48)).symm, cosT_half_turn i⟩⟩, fun k q lanes => ⟨fun C S hC hS => ?_, fun hk _ hq hq' h => ?_⟩⟩
  · have hCos : correlate cosT k q lanes = C := by simp only [hC, correlate_eq_sum, cosT_mod]
    have hSin : correlate sinT k q lanes = S := by simp only [hS, correlate_eq_sum, sinT_mod]
    rw [level, hCos, hSin]; rfl
  · have hAverage := fun i => laneAverage_bounds (by omega) (h i).1 (h i).2
    have hSize : ∀ a : Fin Config.laneCount, |laneAverage k lanes[a]| ≤ 32768 := fun a => by
      obtain ⟨hLow, hHigh, -⟩ := hAverage a
      exact abs_le.mpr ⟨hLow, by omega⟩
    obtain ⟨h1, h2, h3, h4⟩ := mixed_le q (List.mem_range'_1.mpr ⟨hq, by omega⟩)
    have hMix := fun c t => abs_mix_correlate_le (q := q) hSize c t
    refine ⟨hAverage, levelOf_le (n := 25769803776) ?_ ?_ ?_ ?_ (Int.le_refl _)⟩
    · exact (hMix 2 1).trans (by omega)
    · exact (hMix 2 (-1)).trans (by omega)
    · exact (hMix 1 2).trans (by omega)
    · exact (hMix (-1) 2).trans (by omega)

end Sys2Proof.Machine
end

section
/-! PROOF. Postings as one change of the record (R62, R64, R66), the end of a dwell (R63, R85 to R88), and what a sample word does to its
window (R94 to R97, R100, R106). -/

namespace Sys2Proof.Machine

variable {b : BayId} {s t : State}

/-! ## Postings (R62) -/

theorem mapRecord_congr {f g : BayRecord → BayRecord} (h : f (s.record b) = g (s.record b)) : mapRecord b f s = mapRecord b g s :=
  mapBay_congr b _ _ s (congrArg (fun r => { s.bay b with record := r }) h)

theorem mapRecord_eq_self {f : BayRecord → BayRecord} (h : f (s.record b) = s.record b) : mapRecord b f s = s :=
  mapBay_eq_self b _ s (congrArg (fun r => { s.bay b with record := r }) h)

theorem posted_nil : posted b [] s = s := mapRecord_eq_self (by simp)

theorem endOnFailOf_mapRecord {f : BayRecord → BayRecord} (h : (f (s.record b)).planNumber = (s.record b).planNumber) :
    endOnFailOf (mapRecord b f s) b = endOnFailOf s b := by
  unfold endOnFailOf
  rw [mapRecord_recordOf, if_pos rfl, h]
  rfl

theorem posted_record (rs : List Result) : (posted b rs s).record b = { s.record b with
    results := (s.record b).results ++ rs, verdict := rs.foldl (fun v x => worse v x.verdict) (s.record b).verdict,
    endRequest := (s.record b).endRequest || (endOnFailOf s b && rs.any fun x => decide (x.verdict = .fail)) } := by
  rw [posted, mapRecord_recordOf, if_pos rfl]

theorem posted_posted (xs ys : List Result) : posted b ys (posted b xs s) = posted b (xs ++ ys) s := by
  have hEnd : endOnFailOf (posted b xs s) b = endOnFailOf s b := endOnFailOf_mapRecord rfl
  rw [posted, hEnd, posted, mapRecord_mapRecord, posted]
  refine mapRecord_congr ?_
  simp only [List.append_assoc, List.foldl_append, List.any_append, Bool.and_or_distrib_left, Bool.or_assoc]

/-- A posting that is taken. -/
theorem postResult_posted {r : Result} (h : (s.record b).state.takesPostings = true) : postResult b r s = posted b [r] s := by
  rw [postResult, if_pos h, posted]
  refine mapRecord_congr ?_
  simp [Bool.and_comm]

theorem stepResult_posted (rs : List Result) (kind : StepKind) (check : Check) (v : Verdict) (cause : Option Cause) (value1 value2 : Int)
    (notes : Notes) :
    stepResult (posted b rs s) b kind check v cause value1 value2 notes = stepResult s b kind check v cause value1 value2 notes := by
  rw [stepResult, posted_record]; rfl

/-! ## DWELL_END (R63, R85 to R88) -/

theorem band_iff {x pass fail : Int} (h : pass ≤ fail) : (band x pass fail = .pass ↔ x ≤ pass) ∧
    (band x pass fail = .marginal ↔ pass < x ∧ x ≤ fail) ∧ (band x pass fail = .fail ↔ fail < x) := by
  unfold band
  split
  · simp; omega
  · split <;> simp <;> omega

/-- A quotient rounded half up. -/
theorem roundHalfUp_bounds {x c : Int} (hc : 0 < c) : 2 * c * ((x + c / 2) / c) ≤ 2 * x + c ∧ 2 * x + c < 2 * c * ((x + c / 2) / c + 1) := by
  have hDiv := Int.mul_ediv_add_emod (x + c / 2) c
  have hPos := Int.emod_nonneg (x + c / 2) (b := c) (by omega)
  have hLt := Int.emod_lt_of_pos (x + c / 2) hc
  rw [mul_assoc, mul_assoc, mul_add]
  omega

/-- The results of the torque check and of the temperature check, none with its limit pair 0 and 0 (R85). -/
def torqueResults (s : State) (b : BayId) (o : DwellOps) : List Result :=
  if o.torqueOn then [torqueResult s b o ((s.bay b).drive.dwell.getD ⟨0, 0, 0⟩)] else []

def riseResults (s : State) (b : BayId) (o : DwellOps) : List Result := if o.riseOn then [riseResult s b o] else []

theorem riseResult_posted (rs : List Result) (o : DwellOps) : riseResult (posted b rs s) b o = riseResult s b o := by
  have hSensor : ((posted b rs s).bay b).sensor = (s.bay b).sensor := mapRecord_sensor ..
  have hRecord : ((posted b rs s).bay b).record = _ := posted_record (b := b) (s := s) rs
  simp only [riseResult, hSensor, hRecord, stepResult_posted]
  rfl

theorem finishDwell_posted {o : DwellOps} (h : (s.record b).state.takesPostings = true) : finishDwell b o s =
    endStep b (mapDrive b (fun d => { d with dwell := none }) (posted b (torqueResults s b o ++ riseResults s b o) s)) := by
  have hTorque : (if o.torqueOn = true then postResult b (torqueResult s b o ((s.bay b).drive.dwell.getD ⟨0, 0, 0⟩)) s else s) =
      posted b (torqueResults s b o) s := by
    unfold torqueResults
    split
    · exact postResult_posted h
    · exact posted_nil.symm
  have hRise : (if o.riseOn = true then postResult b (riseResult (posted b (torqueResults s b o) s) b o) (posted b (torqueResults s b o) s)
      else posted b (torqueResults s b o) s) = posted b (torqueResults s b o ++ riseResults s b o) s := by
    rw [← posted_posted, riseResult_posted]
    unfold riseResults
    split
    · exact postResult_posted (by rw [posted_record]; exact h)
    · exact posted_nil.symm
  simp only [finishDwell, hTorque, hRise]

theorem dwellDue_eq {o : DwellOps} {t0 : Time} (hPhase : (s.record b).phase = .dwelling) (hLatched : (s.record b).latched = some (.dwell o))
    (hStart : (s.record b).stepStart = some t0) : dwellDue s b = if o.duration.toNat ≤ elapsed s.now t0 then some o else none := by
  simp [dwellDue, hPhase, hLatched, hStart, reached]

theorem torqueOn_iff (o : DwellOps) : o.torqueOn = true ↔ ¬(o.torquePass = 0 ∧ o.torqueFail = 0) := by
  simp [DwellOps.torqueOn]
  tauto

theorem riseOn_iff (o : DwellOps) : o.riseOn = true ↔ ¬(o.risePass = 0 ∧ o.riseFail = 0) := by
  simp [DwellOps.riseOn]
  tauto

/-- Settles O30. -/
theorem dwellEndPostsTorqueThenTemperature : Obligations.DwellEndPostsTorqueThenTemperature := by
  refine ⟨fun x pass fail h => band_iff h, fun b s o t0 acc hPhase hState hLatched hStart hAcc => ⟨fun hBefore => ?_, fun hDue => ?_⟩⟩
  · have hNone : dwellDue s b = none := by rw [dwellDue_eq hPhase hLatched hStart, if_neg (by omega)]
    show Host.Outcome.next _ = _
    simp only [hNone]
  · have hSome : dwellDue s b = some o := by rw [dwellDue_eq hPhase hLatched hStart, if_pos (by omega)]
    have hDwell : (s.bay b).drive.dwell.getD ⟨0, 0, 0⟩ = acc := by
      obtain h | ⟨h, h'⟩ := hAcc
      · rw [h]; rfl
      · rw [h, h']; rfl
    refine ⟨torqueResults s b o, riseResults s b o, ?_, fun h => if_neg (by rw [torqueOn_iff]; exact not_not.mpr h),
      fun h => if_neg (by rw [riseOn_iff]; exact not_not.mpr h), fun h => ?_, fun h => ?_⟩
    · show Host.Outcome.next _ = _
      simp only [hSome, finishDwell_posted (s := s) (b := b) (o := o) (by rw [hState]; rfl)]
    · rw [torqueResults, if_pos ((torqueOn_iff o).mpr h), hDwell, torqueResult]
      refine ⟨fun hc => by rw [if_pos hc], fun hc => ?_⟩
      obtain ⟨hLow, hHigh⟩ := roundHalfUp_bounds (x := acc.sum) (c := acc.count) (by omega)
      exact ⟨_, hLow, hHigh, by rw [if_neg hc]⟩
    · rw [riseResults, if_pos ((riseOn_iff o).mpr h), riseResult]
      have hGet : (s.bay b).record.stepStart.getD s.now = t0 := by
        rw [show (s.bay b).record.stepStart = some t0 from hStart]; rfl
      rw [hGet]
      refine ⟨fun T0 T1 h0 h1 => ?_, fun hMissing => ?_⟩
      · simp only [show (s.bay b).record.startTemperature = some T0 from h0, h1]
      · obtain h0 | h1 := hMissing
        · simp only [show (s.bay b).record.startTemperature = none from h0]
        · simp only [h1]
          split <;> simp_all

/-! ## Sample words (R94 to R97, R100, R106) -/

theorem appendSample_eq (w : List Sample) (x : Sample) : appendSample w x = (w ++ [x]).drop (w.length - 15) := by
  simp only [appendSample, List.length_append, List.length_singleton]
  congr 1

/-- The loss mark after a sample, which has put one of the two timers at 0 (R106). -/
theorem LossWatch.reexamine_pressure (w : LossWatch) : { w with pressureTimer := 0 }.reexamine =
    { w with pressureTimer := 0, mark := w.mark && decide (1000 ≤ w.temperatureTimer) } := by
  unfold LossWatch.reexamine
  split
  · next h => simp [show ¬1000 ≤ w.temperatureTimer from Nat.not_le.mpr h.2]
  · next h =>
    have hTimer : 1000 ≤ w.temperatureTimer := by
      by_contra hc
      exact h ⟨Nat.zero_lt_succ _, Nat.not_le.mp hc⟩
    simp [hTimer]

theorem LossWatch.reexamine_temperature (w : LossWatch) : { w with temperatureTimer := 0 }.reexamine =
    { w with temperatureTimer := 0, mark := w.mark && decide (100 ≤ w.pressureTimer) } := by
  unfold LossWatch.reexamine
  split
  · next h => simp [show ¬100 ≤ w.pressureTimer from Nat.not_le.mpr h.1]
  · next h =>
    have hTimer : 100 ≤ w.pressureTimer := by
      by_contra hc
      exact h ⟨Nat.not_le.mp hc, Nat.zero_lt_succ _⟩
    simp [hTimer]

theorem SensorLink.takePressure_eq (now : Time) (word : BitVec 16) (l : SensorLink) : l.takePressure now word =
    { l with
      pressure := (l.pressure ++ [(⟨word.toNat, now⟩ : Sample)]).drop (l.pressure.length - 15), pressureSilence := 0,
      lossWatch := l.lossWatch.map fun w =>
        { w with pressureTimer := 0, mark := w.mark && decide (1000 ≤ w.temperatureTimer) } } := by
  simp only [SensorLink.takePressure, appendSample_eq, LossWatch.reexamine_pressure]

theorem clamp_eq_max_min {lo hi : Int} (v : Int) (h : lo ≤ hi) : clamp lo hi v = max lo (min hi v) := by
  unfold clamp; split
  · omega
  · split <;> omega

theorem SensorLink.takeTemperature_eq (now : Time) (word : BitVec 16) (l : SensorLink) : l.takeTemperature now word =
    { l with
      temperature := (l.temperature ++ [(⟨max (-4000) (min 15000 word.toInt), now⟩ : Sample)]).drop (l.temperature.length - 15),
      temperatureSilence := 0,
      lossWatch := l.lossWatch.map fun w =>
        { w with temperatureTimer := 0, mark := w.mark && decide (100 ≤ w.pressureTimer) } } := by
  simp only [SensorLink.takeTemperature, appendSample_eq, LossWatch.reexamine_temperature, clamp_eq_max_min _ (show (-4000 : Int) ≤ 15000 by decide)]

theorem SensorLink.framingError_eq (l : SensorLink) : l.framingError =
    { l with framingErrors := if l.framingErrors < 65535 then l.framingErrors + 1 else 65535 } := by
  have hMin : min 65535 (l.framingErrors + 1) = if l.framingErrors < 65535 then l.framingErrors + 1 else 65535 := by split <;> omega
  rw [SensorLink.framingError, hMin]

theorem offerPressure_none {p : Int} (hAmbient : (s.bay b).leak.phase ≠ .ambient) (hFill : (s.bay b).leak.phase ≠ .fill)
    (hVent : (s.bay b).leak.phase ≠ .vent) : offerPressure b p s = s := by
  unfold offerPressure
  split <;> first | contradiction | rfl

theorem mapSensor_congr {f g : SensorLink → SensorLink} (h : f (s.bay b).sensor = g (s.bay b).sensor) : mapSensor b f s = mapSensor b g s :=
  mapBay_congr b _ _ s (by rw [h])

theorem mapSensor_eq_self {f : SensorLink → SensorLink} (h : f (s.bay b).sensor = (s.bay b).sensor) : mapSensor b f s = s :=
  mapBay_eq_self b _ s (by rw [h])

theorem purge_pressure_due {l : SensorLink} (h : l.pressureSilence = 65535) : l.purge .pressure = { l with pressure := [] } := if_pos h

theorem purge_temperature_due {l : SensorLink} (h : l.temperatureSilence = 65535) : l.purge .temperature = { l with temperature := [] } :=
  if_pos h

/-- Settles O31. -/
theorem sampleWordsFillWindows : Obligations.SampleWordsFillWindows := by
  refine ⟨fun b payload s => ⟨fun hAmbient hFill hVent => ?_, ?_⟩, fun b payload s => ?_⟩
  · have hOffer := offerPressure_none (b := b) (p := 4 * (wordField payload).toNat)
      (s := mapSensor b (SensorLink.takePressure s.now (wordField payload)) s) (by simpa using hAmbient) (by simpa using hFill) (by simpa using hVent)
    refine (congrArg Host.Outcome.next hOffer).trans (congrArg Host.Outcome.next ?_)
    exact mapSensor_congr (SensorLink.takePressure_eq ..)
  · exact congrArg Host.Outcome.next (mapSensor_congr (SensorLink.takeTemperature_eq ..))
  · have hCount : mapSensor b SensorLink.framingError s = mapSensor b (fun l =>
        { l with framingErrors := if l.framingErrors < 65535 then l.framingErrors + 1 else 65535 }) s :=
      mapSensor_congr (SensorLink.framingError_eq _)
    refine ⟨congrArg _ hCount, congrArg _ hCount, fun word hTag => ?_, fun h => ?_, fun h => ?_, fun h => ?_, fun h => ?_⟩
    · simp only [sampleWord, hTag]; rfl
    · exact congrArg Host.Outcome.next (mapSensor_congr (purge_pressure_due h))
    · exact congrArg Host.Outcome.next (mapSensor_congr (purge_temperature_due h))
    · exact congrArg Host.Outcome.next (mapSensor_eq_self (if_neg (Nat.ne_of_lt h)))
    · exact congrArg Host.Outcome.next (mapSensor_eq_self (if_neg (Nat.ne_of_lt h)))

end Sys2Proof.Machine
end

section
/-! PROOF. Vibration samples in their rows, and the ends of an acquisition (R99, R109, R113 to R121). -/

namespace Sys2Proof.Machine

variable {b : BayId} {k : BufId} {s t : State} {o : ListenOps}

/-! ## A sample offered (R113, R114) -/

theorem laneOf_eq (angle : Nat) {offset : Nat} (h : offset ≤ 63) : laneOf angle offset = (angle + 64 - offset) % 64 := by
  unfold laneOf
  omega

/-- A VIBRATION word staged (R99). -/
def staged (b : BayId) (payload : BitVec 22) (s : State) : State :=
  mapSensor b (fun l =>
    { l with
      vibration := some ⟨(payload.extractLsb' 16 6).toNat, justify (s.bay b).config.wordWidth (payload.extractLsb' 0 16), s.now⟩,
      vibrationSilence := 0 }) s

/-- A slip: the slip count one higher, the row dropped. -/
def NoiseUnit.slipped (k : BufId) (n : NoiseUnit) : NoiseUnit :=
  { n.set k { n.get k with slips := (n.get k).slips + 1 } with row := .hunting, staging := [] }

/-- A row begun with the sample of lane 0. -/
def NoiseUnit.begun (v : Int) (n : NoiseUnit) : NoiseUnit := { n with row := .inRow 1, staging := [v] }

/-- A sample at a lane other than the expected one, the slip allowance kept (R114). -/
theorem slip_kept {lane : Nat} {v : Int} (hOps : (s.buf b k).ops = some o) (hKept : (s.buf b k).slips + 1 ≤ o.slipAllowance) :
    slip b k lane v s = mapNoise b (fun n => if lane = 0 then (n.slipped k).begun v else n.slipped k) s := by
  have hSlipped : mapNoise b NoiseUnit.rowHunting (mapBuf b k (fun x => { x with slips := x.slips + 1 }) s) =
      mapNoise b (NoiseUnit.slipped k) s := mapNoise_mapNoise ..
  have hBuf : (mapNoise b (NoiseUnit.slipped k) s).buf b k = { s.buf b k with slips := (s.buf b k).slips + 1 } := by
    rw [← hSlipped, rowHunting_buf, mapBuf_buf_same]
  have hNot : ¬o.slipAllowance < (((s.buf b k).slips + 1 : Nat) : Int) := by omega
  simp only [slip, hSlipped, hBuf, hOps, Option.getD_some, if_neg hNot]
  split
  · exact mapNoise_mapNoise ..
  · rfl

section Offer
variable {angle : Nat} {v : Int} {e : Nat}

theorem offerVibration_idle (h : (s.bay b).noise.row = .idle ∨ (s.bay b).noise.find .acquiring = none) :
    offerVibration b angle v s = s := by
  simp only [offerVibration]
  obtain h | h := h
  · rw [h]
  · rw [h]
    split <;> simp_all

theorem offerVibration_hunting (hFind : (s.bay b).noise.find .acquiring = some k) (hRow : (s.bay b).noise.row = .hunting) :
    offerVibration b angle v s =
      if laneOf angle (s.bay b).config.angleOffset = 0 then mapNoise b (NoiseUnit.begun v) s else s := by
  simp only [offerVibration, hRow, hFind]
  rfl

theorem offerVibration_slip (hFind : (s.bay b).noise.find .acquiring = some k) (hRow : (s.bay b).noise.row = .inRow e)
    (hLane : laneOf angle (s.bay b).config.angleOffset ≠ e) :
    offerVibration b angle v s = slip b k (laneOf angle (s.bay b).config.angleOffset) v s := by
  simp only [offerVibration, hRow, hFind, if_pos hLane]

theorem offerVibration_row (hFind : (s.bay b).noise.find .acquiring = some k) (hRow : (s.bay b).noise.row = .inRow e)
    (hLane : laneOf angle (s.bay b).config.angleOffset = e) :
    offerVibration b angle v s = if e = 63 then completeRow b k ((s.bay b).noise.staging ++ [v]) s
      else mapNoise b (fun n => { n with row := .inRow (e + 1), staging := n.staging ++ [v] }) s := by
  simp only [offerVibration, hRow, hFind, if_neg (not_not.mpr hLane)]

end Offer

theorem staged_noise (b : BayId) (payload : BitVec 22) (s : State) : ((staged b payload s).bay b).noise = (s.bay b).noise :=
  mapSensor_noise ..

theorem staged_config (b : BayId) (payload : BitVec 22) (s : State) : ((staged b payload s).bay b).config = (s.bay b).config :=
  mapSensor_config ..

theorem staged_buf (b : BayId) (payload : BitVec 22) (k : BufId) (s : State) : (staged b payload s).buf b k = s.buf b k := by
  rw [State.buf, staged_noise]; rfl

/-- Settles O33. -/
theorem vibrationWordAssemblesRow : Obligations.VibrationWordAssemblesRow := by
  intro b payload s j v lane u hOffset
  have hLane : laneOf (angleField payload) ((staged b payload s).bay b).config.angleOffset = lane := by
    rw [staged_config]; exact laneOf_eq _ hOffset
  have hNoise := staged_noise b payload s
  refine ⟨fun h => congrArg Host.Outcome.next (offerVibration_idle (s := staged b payload s) (by rw [hNoise]; exact h)), fun k hFind => ?_⟩
  rw [← hNoise] at hFind
  refine ⟨fun hRow => ?_, fun e hRow he => ?_⟩
  · refine congrArg Host.Outcome.next ((offerVibration_hunting (s := staged b payload s) hFind (by rw [hNoise]; exact hRow)).trans ?_)
    rw [hLane]; rfl
  · rw [← hNoise] at hRow
    refine ⟨fun hEq hLast => ?_, fun o hOps hNe hKept => ?_⟩
    · refine congrArg Host.Outcome.next ((offerVibration_row (s := staged b payload s) hFind hRow (by rw [hLane]; exact hEq)).trans ?_)
      rw [if_neg (by omega)]; rfl
    · refine congrArg Host.Outcome.next ((offerVibration_slip (s := staged b payload s) hFind hRow (by rw [hLane]; exact hNe)).trans ?_)
      rw [hLane]
      exact slip_kept (by rw [staged_buf]; exact hOps) (by rw [staged_buf]; exact hKept)

/-! ## An acquisition ended without a reduction (R114, R116, R117) -/

/-- A buffer given back with the counts `x`, the row IDLE. -/
def NoiseUnit.givenBack (k : BufId) (x : ListenBuffer) (n : NoiseUnit) : NoiseUnit :=
  { n.set k { x with state := .free, acquisitionStart := none, ops := none, slot := none, discard := false } with row := .idle, staging := [] }

/-- The INVALID result of an acquisition that has ended at the counts `x`. -/
def acquisitionResult (b : BayId) (cause : Cause) (x : ListenBuffer) (s : State) : Result :=
  stepResult s b .listen .noise .invalid (some cause) x.revolutions x.slips Notes.none

theorem failAcquisition_eq {cause : Cause} (hState : (s.record b).state = .running) : failAcquisition b k cause s =
    endStep b (posted b [acquisitionResult b cause (s.buf b k) s] (mapNoise b (NoiseUnit.givenBack k (s.buf b k)) s)) := by
  have hNoise : mapNoise b (fun n => (n.set k (n.get k).freed).rowIdle) s = mapNoise b (NoiseUnit.givenBack k (s.buf b k)) s :=
    mapNoise_congr b s rfl
  have hPosted := postResult_posted (b := b) (r := acquisitionResult b cause (s.buf b k) s)
    (s := mapNoise b (NoiseUnit.givenBack k (s.buf b k)) s) (by rw [mapNoise_recordOf, hState]; rfl)
  have hResult : stepResult (mapNoise b (NoiseUnit.givenBack k (s.buf b k)) s) b .listen .noise .invalid (some cause)
      (s.buf b k).revolutions (s.buf b k).slips Notes.none = acquisitionResult b cause (s.buf b k) s := by
    rw [stepResult, mapNoise_recordOf]; rfl
  simp only [failAcquisition, hNoise, hResult, hPosted]

/-- An acquisition ended after its buffer has changed and its row was dropped. -/
theorem failAcquisition_changed {cause : Cause} {f : ListenBuffer → ListenBuffer} (hState : (s.record b).state = .running) :
    failAcquisition b k cause (mapNoise b NoiseUnit.rowHunting (mapBuf b k f s)) =
      endStep b (posted b [acquisitionResult b cause (f (s.buf b k)) s] (mapNoise b (NoiseUnit.givenBack k (f (s.buf b k))) s)) := by
  have hNoise : mapNoise b (NoiseUnit.givenBack k (f (s.buf b k))) (mapNoise b NoiseUnit.rowHunting (mapBuf b k f s)) =
      mapNoise b (NoiseUnit.givenBack k (f (s.buf b k))) s := by
    rw [mapBuf, mapNoise_mapNoise, mapNoise_mapNoise]
    refine mapNoise_congr b s ?_
    cases k <;> rfl
  have hResult : acquisitionResult b cause (f (s.buf b k)) (mapNoise b NoiseUnit.rowHunting (mapBuf b k f s)) =
      acquisitionResult b cause (f (s.buf b k)) s := by
    rw [acquisitionResult, stepResult, mapNoise_recordOf, mapBuf_recordOf]; rfl
  rw [failAcquisition_eq (by rw [mapNoise_recordOf, mapBuf_recordOf]; exact hState), rowHunting_buf, mapBuf_buf_same, hNoise, hResult]

theorem slip_failed {lane : Nat} {v : Int} (hState : (s.record b).state = .running) (hOps : (s.buf b k).ops = some o)
    (hPast : o.slipAllowance < (s.buf b k).slips + 1) : slip b k lane v s =
      endStep b (posted b [acquisitionResult b .sync { s.buf b k with slips := (s.buf b k).slips + 1 } s]
        (mapNoise b (NoiseUnit.givenBack k { s.buf b k with slips := (s.buf b k).slips + 1 }) s)) := by
  have hPast' : o.slipAllowance < (((s.buf b k).slips + 1 : Nat) : Int) := by omega
  simp only [slip, rowHunting_buf, mapBuf_buf_same, hOps, Option.getD_some, if_pos hPast']
  exact failAcquisition_changed hState

/-! ## A completed row (R115, R116) -/

theorem clampLane_ne_iff (v : Int) : clampLane v ≠ v ↔ v < -8388608 ∨ 8388607 < v := by
  unfold clampLane clamp
  split
  · omega
  · split <;> omega

/-- A buffer with a row of 64 samples added, each sum clamped to 24 bits and a clamp marked. -/
def ListenBuffer.added (row : List Int) (x : ListenBuffer) : ListenBuffer :=
  { x with
    lanes := Vector.ofFn fun i => max (-8388608) (min 8388607 (x.lanes[i] + row.getD i.val 0)), revolutions := x.revolutions + 1,
    saturated := x.saturated || decide (∃ i : Fin 64, x.lanes[i] + row.getD i.val 0 < -8388608 ∨ 8388607 < x.lanes[i] + row.getD i.val 0) }

theorem ListenBuffer.added_ops (row : List Int) (x : ListenBuffer) : (x.added row).ops = x.ops := by simp only [ListenBuffer.added]

/-- A clamp changes a sum at some lane exactly when it does in the list of the sums. -/
theorem clamped_iff {row : List Int} (lanes : Vector Int Config.laneCount) (h : row.length = 64) :
    ((lanes.toList.zip row).any fun p => clampLane (p.1 + p.2) != p.1 + p.2) =
      decide (∃ i : Fin 64, lanes[i] + row.getD i.val 0 < -8388608 ∨ 8388607 < lanes[i] + row.getD i.val 0) := by
  have hLength : (lanes.toList.zip row).length = 64 := by rw [List.length_zip, Vector.length_toList, h]; rfl
  rw [Bool.eq_iff_iff, List.any_eq_true, decide_eq_true_iff]
  simp only [bne_iff_ne, clampLane_ne_iff]
  constructor
  · rintro ⟨p, hp, hClamped⟩
    obtain ⟨i, hi, rfl⟩ := List.mem_iff_getElem.mp hp
    rw [List.getElem_zip] at hClamped
    refine ⟨⟨i, by omega⟩, ?_⟩
    rw [List.getD_eq_getElem _ _ (by omega : i < row.length)]
    exact hClamped
  · rintro ⟨i, hClamped⟩
    have hi : i.val < (lanes.toList.zip row).length := by rw [hLength]; exact i.isLt
    refine ⟨_, List.getElem_mem hi, ?_⟩
    rw [List.getElem_zip]
    rw [List.getD_eq_getElem _ _ (by omega : i.val < row.length)] at hClamped
    exact hClamped

theorem addRow_eq {row : List Int} (x : ListenBuffer) (h : row.length = 64) : x.addRow row = x.added row := by
  rw [ListenBuffer.addRow, clamped_iff x.lanes h]
  simp only [ListenBuffer.added, clampLane, clamp_eq_max_min _ (show (-8388608 : Int) ≤ 8388607 by decide)]

theorem engineTake_busy (h : s.reducer.engine ≠ none ∨ s.reducer.queue = []) : engineTake s = s := by
  unfold engineTake
  split
  · next hEngine hQueue => simp [hEngine, hQueue] at h
  · rfl

theorem engineTake_idle {c : BayId} {rest : List (BayId × BufId)} (hEngine : s.reducer.engine = none) (hQueue : s.reducer.queue = (c, k) :: rest) :
    engineTake s = { mapBuf c k (fun x => { x with state := .reducing }) s with reducer := ⟨rest, some ⟨c, k, s.now⟩⟩ } := by
  simp only [engineTake, hEngine, hQueue]
  rfl

/-- A bay whose buffer `k` has been filled up to `x` and is QUEUED or taken: the row is IDLE and one more reduction is pending. -/
def filled (b : BayId) (k : BufId) (x : ListenBuffer) (st : BufState) (s : State) : State :=
  mapRecord b (fun r => { r with pendingReductions := r.pendingReductions + 1 })
    (mapNoise b (fun n => { n.set k { x with state := st, acquisitionStart := none } with row := .idle, staging := [] }) s)

/-- What a full buffer does when it joins the reducer queue. -/
theorem joinReducer_filled {f : ListenBuffer → ListenBuffer} : joinReducer b k (mapNoise b NoiseUnit.rowIdle
    (mapNoise b NoiseUnit.rowHunting (mapBuf b k f s))) =
      { filled b k (f (s.buf b k)) .queued s with reducer := { s.reducer with queue := s.reducer.queue ++ [(b, k)] } } := by
  have hNoise : mapBuf b k (fun x => { x with state := .queued, acquisitionStart := none }) (mapNoise b NoiseUnit.rowIdle
      (mapNoise b NoiseUnit.rowHunting (mapBuf b k f s))) = mapNoise b (fun n =>
        { n.set k { f (s.buf b k) with state := .queued, acquisitionStart := none } with row := .idle, staging := [] }) s := by
    rw [mapBuf, mapBuf, mapNoise_mapNoise, mapNoise_mapNoise, mapNoise_mapNoise]
    refine mapNoise_congr b s ?_
    cases k <;> rfl
  simp only [joinReducer, hNoise]
  rfl

theorem mapBuf_filled (x : ListenBuffer) : mapBuf b k (fun x => { x with state := .reducing }) (filled b k x .queued s) =
    filled b k x .reducing s := by
  cases b <;> cases k <;> rfl

theorem engineTake_filled_busy {x : ListenBuffer} (h : s.reducer.engine ≠ none) :
    engineTake { filled b k x .queued s with reducer := { s.reducer with queue := s.reducer.queue ++ [(b, k)] } } =
      { filled b k x .queued s with reducer := { s.reducer with queue := s.reducer.queue ++ [(b, k)] } } :=
  engineTake_busy (.inl h)

theorem engineTake_filled_idle {x : ListenBuffer} (h : s.reducer = ⟨[], none⟩) :
    engineTake { filled b k x .queued s with reducer := { s.reducer with queue := s.reducer.queue ++ [(b, k)] } } =
      { filled b k x .reducing s with reducer := ⟨[], some ⟨b, k, s.now⟩⟩ } := by
  rw [engineTake_idle (c := b) (k := k) (rest := []) (by rw [h]) (by rw [h]; rfl), ← mapBuf_filled]
  rfl

theorem acquisitionResult_staged (cause : Cause) (x : ListenBuffer) (payload : BitVec 22) :
    acquisitionResult b cause x (staged b payload s) = acquisitionResult b cause x s := by
  rw [acquisitionResult, stepResult, staged, mapSensor_recordOf]; rfl

theorem completeRow_eq {row : List Int} (hOps : (s.buf b k).ops = some o) (hRow : row.length = 64) : completeRow b k row s =
    if 2 ^ o.exponent.toNat ≤ ((s.buf b k).added row).revolutions then
      finishAcquisition b k (mapNoise b NoiseUnit.rowHunting (mapBuf b k (ListenBuffer.addRow row) s))
    else mapNoise b (fun n => { n.set k ((s.buf b k).added row) with row := .hunting, staging := [] }) s := by
  have hAdded := addRow_eq (s.buf b k) hRow
  have hNoise : mapNoise b NoiseUnit.rowHunting (mapBuf b k (ListenBuffer.addRow row) s) =
      mapNoise b (fun n => { n.set k ((s.buf b k).added row) with row := .hunting, staging := [] }) s := by
    rw [mapBuf, mapNoise_mapNoise, ← hAdded]
    exact mapNoise_congr b s rfl
  have hOps' : ((s.buf b k).added row).ops = some o := (ListenBuffer.added_ops ..).trans hOps
  have hBuf : (mapNoise b NoiseUnit.rowHunting (mapBuf b k (ListenBuffer.addRow row) s)).buf b k = (s.buf b k).added row := by
    rw [rowHunting_buf, mapBuf_buf_same, hAdded]
  unfold completeRow
  dsimp only
  rw [hBuf, hOps', Option.getD_some, ← hNoise]

theorem finishAcquisition_full {f : ListenBuffer → ListenBuffer} (hClean : (f (s.buf b k)).saturated = false) :
    finishAcquisition b k (mapNoise b NoiseUnit.rowHunting (mapBuf b k f s)) = endStep b (engineTake
      { filled b k (f (s.buf b k)) .queued s with reducer := { s.reducer with queue := s.reducer.queue ++ [(b, k)] } }) := by
  have hNot : ¬((mapNoise b NoiseUnit.rowHunting (mapBuf b k f s)).buf b k).saturated = true := by
    rw [rowHunting_buf, mapBuf_buf_same, hClean]; exact Bool.noConfusion
  simp only [finishAcquisition, if_neg hNot, enqueueBuffer, joinReducer_filled]

/-! ## The rows (R115 to R117) -/

theorem acquisitionDue_eq {t0 : Time} (hFind : (s.bay b).noise.find .acquiring = some k) (hOps : (s.buf b k).ops = some o)
    (hStart : (s.buf b k).acquisitionStart = some t0) :
    acquisitionDue s b = if o.timeout.toNat ≤ elapsed s.now t0 then some k else none := by
  simp only [acquisitionDue, hFind, hOps, hStart, reached, Option.getD_some, decide_eq_true_eq]

theorem exec_acquisition_due (h : acquisitionDue s b = some k) : exec (.acquisitionTimeout b) s = .next (failAcquisition b k .timeout s) := by
  show Host.Outcome.next _ = _
  simp only [h]

theorem exec_acquisition_early (h : acquisitionDue s b = none) : exec (.acquisitionTimeout b) s = .next s := by
  show Host.Outcome.next _ = _
  simp only [h]

/-- Settles O34. -/
theorem acquisitionEndsAsItsRowsGive : Obligations.AcquisitionEndsAsItsRowsGive := by
  intro b k s o hFind hOps _ _ hState hOffset failed
  constructor
  · intro payload j v lane u
    have hLane : laneOf (angleField payload) ((staged b payload s).bay b).config.angleOffset = lane := by
      rw [staged_config]; exact laneOf_eq _ hOffset
    have hNoise := staged_noise b payload s
    have hBuf := staged_buf b payload k s
    rw [← hNoise] at hFind
    rw [← hBuf] at hOps
    have hState' : ((staged b payload s).record b).state = .running := by rw [staged, mapSensor_recordOf]; exact hState
    refine ⟨fun hRow hLength hLast => ?_, fun e hRow he hNe hPast => ?_⟩
    · intro row added full
      have hRowLength : row.length = 64 := by rw [List.length_append, hLength]; rfl
      have hAdded : ((staged b payload s).buf b k).added row = added := by rw [hBuf]; rfl
      have hExec : exec (.vibrationWord b payload) s = .next (completeRow b k row (staged b payload s)) := by
        refine congrArg Host.Outcome.next ((offerVibration_row (s := staged b payload s) hFind (by rw [hNoise]; exact hRow) (by rw [hLane]; exact hLast)).trans ?_)
        rw [if_pos rfl, hNoise]; rfl
      rw [completeRow_eq hOps hRowLength, hAdded] at hExec
      refine ⟨fun hBelow => ?_, fun hFull hSaturated => ?_, fun hFull hClean => ?_⟩
      · rw [if_neg (by omega)] at hExec
        exact hExec
      · rw [if_pos hFull] at hExec
        refine hExec.trans (congrArg Host.Outcome.next ?_)
        have hSaturated' : (((mapNoise b NoiseUnit.rowHunting (mapBuf b k (ListenBuffer.addRow row) (staged b payload s)))).buf b k).saturated = true := by
          rw [rowHunting_buf, mapBuf_buf_same, addRow_eq _ hRowLength, hAdded]; exact hSaturated
        rw [finishAcquisition, if_pos hSaturated', failAcquisition_changed hState', addRow_eq _ hRowLength, hAdded, acquisitionResult_staged]
        rfl
      · rw [if_pos hFull, finishAcquisition_full (by rw [addRow_eq _ hRowLength, hAdded]; exact hClean), addRow_eq _ hRowLength, hAdded] at hExec
        refine ⟨fun hBusy => ?_, fun hIdle => ?_⟩
        · exact hExec.trans (by rw [engineTake_filled_busy (s := staged b payload s) hBusy]; rfl)
        · exact hExec.trans (by rw [engineTake_filled_idle (s := staged b payload s) hIdle]; rfl)
    · refine congrArg Host.Outcome.next ((offerVibration_slip (s := staged b payload s) hFind (by rw [hNoise]; exact hRow) (by rw [hLane]; exact hNe)).trans ?_)
      rw [hLane, slip_failed hState' hOps (by rw [hBuf]; exact hPast), hBuf, acquisitionResult_staged]
      rfl
  · intro t0 hStart
    have hDue := acquisitionDue_eq hFind hOps hStart
    refine ⟨fun hBefore => exec_acquisition_early (hDue.trans (if_neg (by omega))), fun hReached => ?_⟩
    refine (exec_acquisition_due (hDue.trans (if_pos (by omega)))).trans (congrArg Host.Outcome.next ?_)
    exact failAcquisition_eq hState

end Sys2Proof.Machine
end

section
/-! PROOF. The completion of a reduction: its result, and what goes on behind it (R58, R62, R67, R111, R121 to R124, R129). -/

namespace Sys2Proof.Machine

variable {b : BayId} {s t : State} {j : EngineJob} {o : ListenOps}

/-! ## What a completion wakes (R58, R67, R111) -/

theorem wakeBay_out (hClosing : (s.record b).state ≠ .closing) (hRunning : (s.record b).state ≠ .running) : wakeBay b s = s := by
  unfold wakeBay
  dsimp only
  split <;> first | contradiction | rfl

theorem wakeBay_closing (h : (s.record b).state = .closing) : wakeBay b s = settleEnding b s := by
  simp only [wakeBay, h]

theorem wakeBay_buffer (h : (s.record b).state = .running) (hPhase : (s.record b).phase = .bufferWait)
    (hLatched : (s.record b).latched = some (.listen o)) : wakeBay b s = afterStart b (startListen b o s) := by
  simp only [wakeBay, h, hPhase, if_true, hLatched]

theorem wakeBay_running (h : (s.record b).state = .running) (hPhase : (s.record b).phase ≠ .bufferWait) : wakeBay b s =
    if (s.record b).phase = .entryWait ∧ ((s.record b).endRequest = true ∨ (s.record b).pendingReductions = 0) then
      boundary b ((s.record b).slot.getD Config.endLink) s else s := by
  simp only [wakeBay, h, if_neg hPhase]

/-! ## The completion (R122, R124, R129) -/

/-- The result of a reduction as it stands in the list of its bay. -/
def reductionPosted (j : EngineJob) (s : State) : State :=
  if (s.buf j.bay j.buf).discard then s else posted j.bay [noiseResult (s.buf j.bay j.buf) s.now] s

theorem completeReduction_posted (h : (s.record j.bay).state.takesPostings = true) :
    completeReduction j s = engineTake (wakeBay j.bay (freeReduced j (reductionPosted j s))) := by
  simp only [completeReduction, reductionPosted, postResult_posted (b := j.bay) h]

theorem completeReduction_unposted (h : (s.record j.bay).state.takesPostings = false) :
    completeReduction j s = engineTake (wakeBay j.bay (freeReduced j s)) := by
  have hNone : postResult j.bay (noiseResult (s.buf j.bay j.buf) s.now) s = s := by rw [postResult, if_neg (by simp [h])]
  simp only [completeReduction, hNone, ite_self]

theorem exec_reduction_due (hJob : s.reducer.engine = some j) (hDue : 2 ≤ elapsed s.now j.start) :
    exec .reductionComplete s = .next (completeReduction j s) := by
  have h : reductionDue s = some j := by simp only [reductionDue, hJob, if_pos hDue]
  show Host.Outcome.next _ = _
  simp only [h]

theorem exec_reduction_early (h : reductionDue s = none) : exec .reductionComplete s = .next s := by
  show Host.Outcome.next _ = _
  simp only [h]

theorem freeReduced_drive (j : EngineJob) (s : State) : ((freeReduced j s).bay j.bay).drive = (s.bay j.bay).drive := by
  rw [freeReduced_bay, mapRecord_drive, mapBuf_drive]

theorem reductionPosted_record (j : EngineJob) (s : State) : ∃ rs v e, (reductionPosted j s).record j.bay =
    { s.record j.bay with results := rs, verdict := v, endRequest := e } := by
  unfold reductionPosted
  split
  · exact ⟨_, _, _, rfl⟩
  · exact ⟨_, _, _, posted_record _⟩

theorem reductionPosted_drive (j : EngineJob) (s : State) : ((reductionPosted j s).bay j.bay).drive = (s.bay j.bay).drive := by
  unfold reductionPosted
  split
  · rfl
  · exact mapRecord_drive ..

/-- Settles O35. -/
theorem reductionPostsNoiseResult : Obligations.ReductionPostsNoiseResult := by
  refine ⟨fun v => ⟨engineTake_busy, fun c k rest => engineTake_idle⟩, fun s hNone => exec_reduction_early (by simp [reductionDue, hNone]),
    fun s j o hJob hOps => ⟨fun hBefore => exec_reduction_early ?_, fun hDue => ?_⟩⟩
  · simp only [reductionDue, hJob, if_neg (Nat.not_le.mpr hBefore)]
  intro b x m m2 result freed u ends
  have hResult : noiseResult (s.buf j.bay j.buf) s.now = result := by
    rw [noiseResult, hOps]
    rfl
  have hFreed : freed s = freeReduced j s := rfl
  have hU : freeReduced j (reductionPosted j s) = u := by
    show freeReduced j (if _ then _ else _) = freed (if _ then _ else _)
    rw [hResult]
    split <;> rfl
  have hExec := exec_reduction_due hJob hDue
  obtain ⟨rs, v, e, hPosted⟩ := reductionPosted_record j s
  have hRecord : u.record b = { s.record b with
      results := rs, verdict := v, endRequest := e, pendingReductions := (s.record b).pendingReductions - 1 } := by
    rw [← hU, freeReduced_record, if_pos rfl, hPosted]
  have hDrive : (u.bay b).drive = (s.bay b).drive := by rw [← hU, freeReduced_drive, reductionPosted_drive]
  have hGoes : ∀ w, (s.record b).state.takesPostings = true → wakeBay b u = w → ends w := fun w hTakes hWake =>
    hExec.trans (by rw [completeReduction_posted hTakes, hU, hWake])
  refine ⟨fun hRunning hHeld hClosing => ?_, fun hHeld => ?_, fun hRunning hBuffer hEntry => ?_, fun hRunning hEntry => ⟨fun hReady k hSlot => ?_,
    fun hEnd hPending => ?_⟩, fun o' hRunning hBuffer hLatched => ⟨fun hOver => ?_, fun hOn => ?_⟩, fun hClosing => ⟨fun hOver hPending => ?_,
    fun hOn => ?_⟩⟩
  · have hTakes : (s.record b).state.takesPostings = false := by
      cases hState : (s.record b).state <;> first | rfl | contradiction
    have hWake : wakeBay j.bay (freeReduced j s) = freeReduced j s := wakeBay_out
      (by rw [freeReduced_record, if_pos rfl]; exact hClosing) (by rw [freeReduced_record, if_pos rfl]; exact hRunning)
    exact hExec.trans (congrArg Host.Outcome.next ((completeReduction_unposted hTakes).trans (congrArg engineTake hWake)))
  · exact hGoes u (by rw [hHeld]; rfl) (wakeBay_out (by rw [hRecord, hHeld]; exact nofun) (by rw [hRecord, hHeld]; exact nofun))
  · have hEnds := hGoes u (by rw [hRunning]; rfl)
      ((wakeBay_running (by rw [hRecord]; exact hRunning) (by rw [hRecord]; exact hBuffer)).trans (if_neg (by rw [hRecord]; exact fun h => hEntry h.1)))
    refine ⟨hEnds, fun hQueue => hEnds.trans (congrArg _ (engineTake_busy (.inr ?_)))⟩
    show s.reducer.queue = []
    exact hQueue
  · refine hGoes _ (by rw [hRunning]; rfl) ((wakeBay_running (by rw [hRecord]; exact hRunning) (by rw [hRecord]; exact hEntry ▸ nofun)).trans ?_)
    rw [if_pos ⟨by rw [hRecord]; exact hEntry, hReady⟩, hRecord, hSlot]
    rfl
  · refine hGoes u (by rw [hRunning]; rfl) ((wakeBay_running (by rw [hRecord]; exact hRunning) (by rw [hRecord]; exact hEntry ▸ nofun)).trans ?_)
    exact if_neg fun h => h.2.elim (by simp [hEnd]) hPending
  · refine hGoes _ (by rw [hRunning]; rfl) ((wakeBay_buffer (o := o') (by rw [hRecord]; exact hRunning) (by rw [hRecord]; exact hBuffer)
      (by rw [hRecord]; exact hLatched)).trans ?_)
    rw [afterStart, if_pos hOver]
  · refine hGoes _ (by rw [hRunning]; rfl) ((wakeBay_buffer (o := o') (by rw [hRecord]; exact hRunning) (by rw [hRecord]; exact hBuffer)
      (by rw [hRecord]; exact hLatched)).trans ?_)
    rw [afterStart, if_neg (by rw [hOn]; exact Bool.noConfusion)]
  · refine ⟨finishClosing b u, hGoes _ (by rw [hClosing]; rfl) ((wakeBay_closing (by rw [hRecord]; exact hClosing)).trans
      (settleEnding_closing (by rw [hDrive]; exact hOver) (by rw [hRecord]; exact hClosing) hPending)), ?_⟩
    have hFinished := finishBay_finishedWith b (closingVerdict (worstOf (u.record b).results)) u
    have hCause : (u.record b).cause = (s.record b).cause ∧ (u.record b).secondary = (s.record b).secondary := by rw [hRecord]; exact ⟨rfl, rfl⟩
    rw [hCause.1, hCause.2, closingVerdict_eq] at hFinished
    exact hFinished
  · refine hGoes u (by rw [hClosing]; rfl) ((wakeBay_closing (by rw [hRecord]; exact hClosing)).trans ?_)
    obtain hTurning | hPending := hOn
    · exact settleEnding_not_over (by rw [hDrive]; exact hTurning)
    · exact settleEnding_closing_pending (by rw [hRecord]; exact hClosing) hPending

end Sys2Proof.Machine
end

section
/-! PROOF. What a LEAK step moves: the relations between two states that its phases, postings and grants keep (R25, R131 to R150). -/

namespace Sys2Proof.Machine

variable {b : BayId} {s t u : State} {ph : LeakPhase}

/-! ## The relations compose -/

theorem BayRecord.leakMoved_trans {r r' r'' : BayRecord}
    (h : r' = { r with phase := r'.phase, lines := r'.lines, results := r'.results, verdict := r'.verdict, endRequest := r'.endRequest })
    (h' : r'' = { r' with phase := r''.phase, lines := r''.lines, results := r''.results, verdict := r''.verdict, endRequest := r''.endRequest }) :
    r'' = { r with phase := r''.phase, lines := r''.lines, results := r''.results, verdict := r''.verdict, endRequest := r''.endRequest } := by
  cases r; cases r'; cases r''
  simp_all

theorem LeakMoved.trans (h : LeakMoved b s t) (h' : LeakMoved b t u) : LeakMoved b s u where
  record := BayRecord.leakMoved_trans h.record h'.record
  rest := by
    obtain ⟨hConfig, hDrive, hSensor, hNoise⟩ := h.rest
    rw [← hConfig, ← hDrive, ← hSensor, ← hNoise]
    exact h'.rest
  shared := by
    obtain ⟨hCell, hStore, hReducer, hReports, hPorts, hPending⟩ := h.shared
    rw [← hCell, ← hStore, ← hReducer, ← hReports, ← hPorts, ← hPending]
    exact h'.shared

/-- Only the unit and what a LEAK step moves of the record differ. -/
theorem LeakMoved.of_bay {l : LeakUnit} {p : StepPhase} {ls : ActuatorLines} {rs : List Result} {v : Verdict} {e : Bool}
    (hRest : t.rest = s.rest)
    (hBay : t.bay b = { s.bay b with
      leak := l, record := { s.record b with phase := p, lines := ls, results := rs, verdict := v, endRequest := e } }) : LeakMoved b s t where
  record := by rw [State.record, hBay]
  rest := by rw [hBay]; exact ⟨rfl, rfl, rfl, rfl⟩
  shared := State.rest_eq_iff.mp hRest

theorem LeakMoved.config (h : LeakMoved b s t) : (t.bay b).config = (s.bay b).config := h.rest.1
theorem LeakMoved.sensor (h : LeakMoved b s t) : (t.bay b).sensor = (s.bay b).sensor := h.rest.2.2.1
theorem LeakMoved.now (h : LeakMoved b s t) : t.now = s.now := congrArg CellControl.time h.shared.1

theorem LeakMoved.kept (h : LeakMoved b s t) : (t.record b).state = (s.record b).state ∧ (t.record b).owner = (s.record b).owner ∧
    (t.record b).slot = (s.record b).slot ∧ (t.record b).stepStart = (s.record b).stepStart ∧ endOnFailOf t b = endOnFailOf s b := by
  have hRecord := h.record
  have hPlan : (t.record b).planNumber = (s.record b).planNumber := by rw [hRecord]
  refine ⟨by rw [hRecord], by rw [hRecord], by rw [hRecord], by rw [hRecord], ?_⟩
  unfold endOnFailOf
  rw [hPlan, h.shared.2.1]

theorem LeakMoved.stepResult (h : LeakMoved b s t) (kind : StepKind) (check : Check) (v : Verdict) (cause : Option Cause) (x y : Int)
    (notes : Notes) : stepResult t b kind check v cause x y notes = stepResult s b kind check v cause x y notes := by
  obtain ⟨-, -, hSlot, -⟩ := h.kept
  rw [Machine.stepResult, Machine.stepResult, hSlot, h.now]

theorem Unposted.trans (h : Unposted b s t) (h' : Unposted b t u) : Unposted b s u := by
  obtain ⟨hResults, hVerdict, hEnd⟩ := h
  obtain ⟨hResults', hVerdict', hEnd'⟩ := h'
  exact ⟨hResults'.trans hResults, hVerdict'.trans hVerdict, hEnd'.trans hEnd⟩

theorem Posted.before {r : Result} (hMoved : LeakMoved b s t) (h : Unposted b s t) (h' : Posted b r t u) : Posted b r s u := by
  obtain ⟨hResults, hVerdict, hEnd⟩ := h
  obtain ⟨-, -, -, -, hPlan⟩ := hMoved.kept
  unfold Posted at h' ⊢
  rwa [← hResults, ← hVerdict, ← hEnd, ← hPlan]

theorem Posted.after {r : Result} (h : Posted b r s t) (h' : Unposted b t u) : Posted b r s u := by
  obtain ⟨hResults, hVerdict, hEnd⟩ := h'
  unfold Posted at h ⊢
  rwa [hResults, hVerdict, hEnd]

/-- A posting after moves that post nothing and leave the result posted mark. -/
theorem LeakPosted.before {r : Result} (hMoved : LeakMoved b s t) (h : Unposted b s t) (hMark : (t.bay b).leak.posted = (s.bay b).leak.posted)
    (h' : LeakPosted b r t u) : LeakPosted b r s u := by
  unfold LeakPosted at h' ⊢
  rw [hMark] at h'
  split
  · next hp => rw [if_pos hp] at h'; exact h.trans h'
  · next hp => rw [if_neg hp] at h'; exact h'.before hMoved h

theorem LeakPosted.after {r : Result} (h : LeakPosted b r s t) (h' : Unposted b t u) : LeakPosted b r s u := by
  unfold LeakPosted at h ⊢
  split
  · next hp => rw [if_pos hp] at h; exact h.trans h'
  · next hp => rw [if_neg hp] at h; exact h.after h'

/-! ## Lines (R25) -/

theorem linesDriven_iff {sealed vented : Bool} : LinesDriven b sealed vented s t ↔
    (t.record b).lines.clamp = (if (s.bay b).config.map.clamp = .driven then true else (s.record b).lines.clamp) ∧
    (t.record b).lines.couple = (if (s.bay b).config.map.couple = .driven then true else (s.record b).lines.couple) ∧
    (t.record b).lines.sealHeads = (if (s.bay b).config.map.sealHeads = .driven then sealed else (s.record b).lines.sealHeads) ∧
    (t.record b).lines.vent = (if (s.bay b).config.map.vent = .driven then vented else (s.record b).lines.vent) := by
  unfold LinesDriven
  cases (t.record b).lines
  simp only [ActuatorLines.mk.injEq]
  tauto

/-- The lines driven do not hang on the driven lines before. -/
theorem LinesDriven.after {sealed vented sealed' vented' : Bool} (h : LinesDriven b sealed vented s t)
    (hConfig : (t.bay b).config = (s.bay b).config) (h' : LinesDriven b sealed' vented' t u) : LinesDriven b sealed' vented' s u := by
  rw [linesDriven_iff] at h h' ⊢
  obtain ⟨hClamp, hCouple, hSeal, hVent⟩ := h
  rw [hConfig, hClamp, hCouple, hSeal, hVent] at h'
  obtain ⟨hClamp', hCouple', hSeal', hVent'⟩ := h'
  rw [hClamp', hCouple', hSeal', hVent']
  refine ⟨?_, ?_, ?_, ?_⟩ <;> split <;> rfl

/-- A change of the FILL line alone before. -/
theorem LinesDriven.after_fill {sealed vented : Bool} {f : Bool} (hLines : (t.record b).lines = { (s.record b).lines with fill := f })
    (hConfig : (t.bay b).config = (s.bay b).config) (h : LinesDriven b sealed vented t u) : LinesDriven b sealed vented s u := by
  rw [linesDriven_iff] at h ⊢
  rwa [hConfig, hLines] at h

theorem linesDriven_of_sequencer {f : Bool} (hPhase : ph ≠ .idle)
    (h : (t.record b).lines = sequencerLines (s.bay b).config.map .running ph { (s.record b).lines with fill := f }) :
    LinesDriven b true (decide (ph = .ambient ∨ ph = .vent)) s t := by
  rw [linesDriven_iff, h]
  simp [sequencerLines, hPhase]

/-! ## Steps of the unit that leave lines and phase -/

/-- Only the unit and the postings of bay `b` differ. -/
structure LeakKept (b : BayId) (s t : State) : Prop where
  moved : LeakMoved b s t
  phase : (t.record b).phase = (s.record b).phase
  lines : (t.record b).lines = (s.record b).lines
  others : ∀ c, c ≠ b → t.bay c = s.bay c
  manifold : t.manifold = s.manifold

theorem mapLeak_kept (f : LeakUnit → LeakUnit) : LeakKept b s (mapLeak b f s) where
  moved := .of_bay (mapLeak_rest ..) (mapLeak_bay_same ..)
  phase := by rw [mapLeak_recordOf]
  lines := by rw [mapLeak_recordOf]
  others c hc := mapLeak_bay_other _ _ hc
  manifold := rfl

theorem mapLeak_unposted (f : LeakUnit → LeakUnit) : Unposted b s (mapLeak b f s) := by
  unfold Unposted
  rw [mapLeak_recordOf]
  exact ⟨rfl, rfl, rfl⟩

theorem postResult_kept (r : Result) : LeakKept b s (postResult b r s) := by
  obtain ⟨rs, v, e, hBay⟩ := postResult_bay_same b r s
  exact {
    moved := .of_bay (postResult_rest ..) hBay
    phase := by rw [State.record, hBay]
    lines := by rw [State.record, hBay]
    others := fun c hc => postResult_bay_other _ _ hc
    manifold := postResult_manifold .. }

theorem LeakKept.trans (h : LeakKept b s t) (h' : LeakKept b t u) : LeakKept b s u where
  moved := h.moved.trans h'.moved
  phase := h'.phase.trans h.phase
  lines := h'.lines.trans h.lines
  others c hc := (h'.others c hc).trans (h.others c hc)
  manifold := h'.manifold.trans h.manifold

/-- A LEAK result posted, or passed over with the mark set (R146). -/
theorem postLeak_kept (v : Verdict) (cause : Option Cause) (x y : Int) : LeakKept b s (postLeak b v cause x y s) ∧
    ((postLeak b v cause x y s).bay b).leak = { (s.bay b).leak with posted := true } := by
  unfold postLeak
  split
  · next h => exact ⟨⟨.of_bay rfl rfl, rfl, rfl, fun _ _ => rfl, rfl⟩, by rw [← h]⟩
  · obtain ⟨rs, v, e, hBay⟩ := postResult_bay_same b (stepResult s b .leak .leak v cause x y (s.bay b).leak.notes) s
    exact ⟨(postResult_kept _).trans (mapLeak_kept _), by rw [mapLeak_bay_same, hBay]⟩

theorem postLeak_posted (hState : (s.record b).state = .running) (v : Verdict) (cause : Option Cause) (x y : Int) :
    LeakPosted b (stepResult s b .leak .leak v cause x y (s.bay b).leak.notes) s (postLeak b v cause x y s) := by
  unfold LeakPosted postLeak
  split
  · exact ⟨rfl, rfl, rfl⟩
  · unfold Posted
    rw [mapLeak_recordOf, postResult_posted (by rw [hState]; rfl), posted_record]
    simp

/-! ## A phase entered (R135, R137 to R147) -/

/-- The unit of bay `b` has entered phase `ph` and stands at `l`, with the manifold and FILL as they were. -/
structure LeakEntered (b : BayId) (ph : LeakPhase) (l : LeakUnit) (s t : State) : Prop where
  moved : LeakMoved b s t
  leak : (t.bay b).leak = l
  phase : (t.record b).phase = ph.step
  lines : (s.record b).owner = .sequencer → (s.record b).state = .running → LinesDriven b true (decide (ph = .ambient ∨ ph = .vent)) s t
  fill : (t.record b).lines.fill = (s.record b).lines.fill
  others : ∀ c, c ≠ b → t.bay c = s.bay c
  manifold : t.manifold = s.manifold

section Entered
variable {l l' : LeakUnit} {ph' : LeakPhase}

theorem LeakEntered.after_kept (h : LeakKept b s t) (h' : LeakEntered b ph l t u) : LeakEntered b ph l s u where
  moved := h.moved.trans h'.moved
  leak := h'.leak
  phase := h'.phase
  lines hOwner hState := by
    obtain ⟨hState', hOwner', -⟩ := h.moved.kept
    exact (h'.lines (hOwner'.trans hOwner) (hState'.trans hState)).after_fill (f := (s.record b).lines.fill) h.lines h.moved.config
  fill := h'.fill.trans (by rw [h.lines])
  others c hc := (h'.others c hc).trans (h.others c hc)
  manifold := h'.manifold.trans h.manifold

theorem LeakEntered.trans (h : LeakEntered b ph l s t) (h' : LeakEntered b ph' l' t u) : LeakEntered b ph' l' s u where
  moved := h.moved.trans h'.moved
  leak := h'.leak
  phase := h'.phase
  lines hOwner hState := by
    obtain ⟨hState', hOwner', -⟩ := h.moved.kept
    exact (h.lines hOwner hState).after h.moved.config (h'.lines (hOwner'.trans hOwner) (hState'.trans hState))
  fill := h'.fill.trans h.fill
  others c hc := (h'.others c hc).trans (h.others c hc)
  manifold := h'.manifold.trans h.manifold

/-- The unit changes once more within its phase. -/
theorem LeakEntered.then_kept (h : LeakEntered b ph l s t) (h' : LeakKept b t u) : LeakEntered b ph (u.bay b).leak s u where
  moved := h.moved.trans h'.moved
  leak := rfl
  phase := h'.phase.trans h.phase
  lines hOwner hState := by
    have hLines := h.lines hOwner hState
    rw [linesDriven_iff] at hLines ⊢
    rwa [h'.lines]
  fill := (congrArg ActuatorLines.fill h'.lines).trans h.fill
  others c hc := (h'.others c hc).trans (h.others c hc)
  manifold := h'.manifold.trans h.manifold

end Entered

theorem enterLeakPhase_entered (hPhase : ph ≠ .idle) (start : Option Time) :
    LeakEntered b ph { (s.bay b).leak with phase := ph, phaseStart := start, startMeans := none } s (enterLeakPhase b ph start s) := by
  have hBay := enterLeakPhase_bay_same b ph start s
  have hRecord : (enterLeakPhase b ph start s).record b = _ := congrArg Bay.record hBay
  exact {
    moved := .of_bay (enterLeakPhase_rest ..) hBay
    leak := by rw [hBay]
    phase := by rw [hRecord]
    lines := fun hOwner hState => linesDriven_of_sequencer (f := (s.record b).lines.fill) hPhase (by rw [hRecord]; simp only [hOwner, hState, if_true])
    fill := by rw [hRecord]; dsimp only; split <;> rfl
    others := fun c hc => enterLeakPhase_bay_other _ _ _ hc
    manifold := enterLeakPhase_manifold .. }

theorem enterLeakPhase_unposted (start : Option Time) : Unposted b s (enterLeakPhase b ph start s) := by
  have hRecord : (enterLeakPhase b ph start s).record b = _ := congrArg Bay.record (enterLeakPhase_bay_same b ph start s)
  unfold Unposted
  rw [hRecord]
  exact ⟨rfl, rfl, rfl⟩

/-- A result is posted, or passed over, and the unit vents (R146, R147). -/
theorem postVent_entered (hState : (s.record b).state = .running) (v : Verdict) (cause : Option Cause) (x y : Int) :
    LeakEntered b .vent { (s.bay b).leak with phase := .vent, phaseStart := some s.now, startMeans := none, posted := true } s
      (enterVent b (postLeak b v cause x y s)) ∧
    LeakPosted b (stepResult s b .leak .leak v cause x y (s.bay b).leak.notes) s (enterVent b (postLeak b v cause x y s)) := by
  obtain ⟨hKept, hLeak⟩ := postLeak_kept (b := b) (s := s) v cause x y
  have hVent := enterLeakPhase_entered (b := b) (ph := .vent) (s := postLeak b v cause x y s) nofun (some (postLeak b v cause x y s).now)
  rw [hLeak, hKept.moved.now] at hVent
  refine ⟨.after_kept hKept ?_, (postLeak_posted hState v cause x y).after (enterLeakPhase_unposted _)⟩
  rw [enterVent, hKept.moved.now]
  exact hVent

theorem since_measure {t0 now : Time} (hStart : (s.record b).stepStart = some t0) :
    ((enterLeakPhase b .measure (some s.now) s).bay b).record.stepStart.getD now = t0 := by
  obtain ⟨-, -, -, hStart', -⟩ := (enterLeakPhase_entered (b := b) (ph := .measure) (s := s) nofun (some s.now)).moved.kept
  rw [show ((enterLeakPhase b .measure (some s.now) s).bay b).record.stepStart = _ from hStart', hStart]
  rfl

/-- MEASURE with both means since the step start (R142). -/
theorem enterMeasure_means {t0 : Time} {p T : Int} (hStart : (s.record b).stepStart = some t0)
    (hp : (s.bay b).sensor.pressureSince s.now t0 = some p) (hT : (s.bay b).sensor.temperatureSince s.now t0 = some T) :
    LeakEntered b .measure { (s.bay b).leak with phase := .measure, phaseStart := some s.now, startMeans := some (p, T) } s (enterMeasure b s) ∧
    Unposted b s (enterMeasure b s) := by
  have hEntered := enterLeakPhase_entered (b := b) (ph := .measure) (s := s) nofun (some s.now)
  have hMeasure : enterMeasure b s = mapLeak b (fun u => { u with startMeans := some (p, T) }) (enterLeakPhase b .measure (some s.now) s) := by
    simp only [enterMeasure, since_measure hStart, hEntered.moved.sensor, hEntered.moved.now, hp, hT]
  rw [hMeasure]
  refine ⟨?_, (enterLeakPhase_unposted _).trans (mapLeak_unposted _)⟩
  have hKept := hEntered.then_kept (mapLeak_kept (b := b) fun u => { u with startMeans := some (p, T) })
  rw [mapLeak_bay_same, hEntered.leak] at hKept
  exact hKept

/-- MEASURE with a mean missing (R142). -/
theorem enterMeasure_short {t0 : Time} (hStart : (s.record b).stepStart = some t0) (hState : (s.record b).state = .running)
    (h : (s.bay b).sensor.pressureSince s.now t0 = none ∨ (s.bay b).sensor.temperatureSince s.now t0 = none) :
    LeakEntered b .vent { (s.bay b).leak with phase := .vent, phaseStart := some s.now, startMeans := none, posted := true } s (enterMeasure b s) ∧
    LeakPosted b (stepResult s b .leak .leak .invalid (some .sensorShort) 0 0 (s.bay b).leak.notes) s (enterMeasure b s) := by
  have hEntered := enterLeakPhase_entered (b := b) (ph := .measure) (s := s) nofun (some s.now)
  obtain ⟨hState', -⟩ := hEntered.moved.kept
  have hMeasure : enterMeasure b s = enterVent b (postLeak b .invalid (some .sensorShort) 0 0 (enterLeakPhase b .measure (some s.now) s)) := by
    simp only [enterMeasure, since_measure hStart, hEntered.moved.sensor, hEntered.moved.now]
    split
    · next hp hT => simp [hp, hT] at h
    · rfl
  obtain ⟨hVent, hPosted⟩ := postVent_entered (s := enterLeakPhase b .measure (some s.now) s) (b := b) (hState'.trans hState) .invalid
    (some .sensorShort) 0 0
  rw [hEntered.leak, hEntered.moved.now] at hVent
  rw [hEntered.leak, hEntered.moved.stepResult] at hPosted
  rw [hMeasure]
  exact ⟨hEntered.trans hVent, hPosted.before hEntered.moved (enterLeakPhase_unposted _) (by rw [hEntered.leak])⟩

end Sys2Proof.Machine
end

section
/-! PROOF. The leak test: its samples, its limits and the end of its measure time (R131 to R133, R137 to R147). -/

namespace Sys2Proof.Machine

variable {b : BayId} {s t u : State} {o : LeakOps}

/-! ## SETTLE (R141, R142) -/

theorem enterSettle_eq (hOps : (s.bay b).leak.ops = some o) : enterSettle b s =
    if o.settleTime ≤ 0 then enterMeasure b (enterLeakPhase b .settle (some s.now) s) else enterLeakPhase b .settle (some s.now) s := by
  have hLeak : (enterLeakPhase b .settle (some s.now) s).leakOps b = o := by
    rw [State.leakOps, enterLeakPhase_bay_same]
    show (s.bay b).leak.ops.getD _ = o
    rw [hOps]; rfl
  simp only [enterSettle, hLeak]

/-- SETTLE with a settle time. -/
theorem enterSettle_stays (hOps : (s.bay b).leak.ops = some o) (h : 0 < o.settleTime) :
    LeakEntered b .settle { (s.bay b).leak with phase := .settle, phaseStart := some s.now, startMeans := none } s (enterSettle b s) ∧
    Unposted b s (enterSettle b s) := by
  rw [enterSettle_eq hOps, if_neg (by omega)]
  exact ⟨enterLeakPhase_entered (ph := .settle) nofun _, enterLeakPhase_unposted _⟩

section Passed
variable {t0 : Time}

/-- SETTLE passed at once, both means since the step start being there. -/
theorem enterSettle_means {p T : Int} (hOps : (s.bay b).leak.ops = some o) (h : o.settleTime ≤ 0) (hStart : (s.record b).stepStart = some t0)
    (hp : (s.bay b).sensor.pressureSince s.now t0 = some p) (hT : (s.bay b).sensor.temperatureSince s.now t0 = some T) :
    LeakEntered b .measure { (s.bay b).leak with phase := .measure, phaseStart := some s.now, startMeans := some (p, T) } s (enterSettle b s) ∧
    Unposted b s (enterSettle b s) := by
  rw [enterSettle_eq hOps, if_pos h]
  have hSettle := enterLeakPhase_entered (b := b) (ph := .settle) (s := s) nofun (some s.now)
  obtain ⟨-, -, -, hStart', -⟩ := hSettle.moved.kept
  obtain ⟨hMeasure, hUnposted⟩ := enterMeasure_means (hStart'.trans hStart) (by rw [hSettle.moved.sensor, hSettle.moved.now]; exact hp)
    (by rw [hSettle.moved.sensor, hSettle.moved.now]; exact hT)
  rw [hSettle.leak, hSettle.moved.now] at hMeasure
  exact ⟨hSettle.trans hMeasure, (enterLeakPhase_unposted _).trans hUnposted⟩

/-- SETTLE passed at once, a mean missing. -/
theorem enterSettle_short (hOps : (s.bay b).leak.ops = some o) (h : o.settleTime ≤ 0) (hStart : (s.record b).stepStart = some t0)
    (hState : (s.record b).state = .running)
    (hMissing : (s.bay b).sensor.pressureSince s.now t0 = none ∨ (s.bay b).sensor.temperatureSince s.now t0 = none) :
    LeakEntered b .vent { (s.bay b).leak with phase := .vent, phaseStart := some s.now, startMeans := none, posted := true } s (enterSettle b s) ∧
    LeakPosted b (stepResult s b .leak .leak .invalid (some .sensorShort) 0 0 (s.bay b).leak.notes) s (enterSettle b s) := by
  rw [enterSettle_eq hOps, if_pos h]
  have hSettle := enterLeakPhase_entered (b := b) (ph := .settle) (s := s) nofun (some s.now)
  obtain ⟨hState', -, -, hStart', -⟩ := hSettle.moved.kept
  obtain ⟨hVent, hPosted⟩ := enterMeasure_short (hStart'.trans hStart) (hState'.trans hState)
    (by rw [hSettle.moved.sensor, hSettle.moved.now]; exact hMissing)
  rw [hSettle.leak, hSettle.moved.now] at hVent
  rw [hSettle.leak, hSettle.moved.stepResult] at hPosted
  exact ⟨hSettle.trans hVent, hPosted.before hSettle.moved (enterLeakPhase_unposted _) (by rw [hSettle.leak])⟩

end Passed

/-! ## The manifold released and granted (R132, R133, R139) -/

/-- Bay `b` has given the manifold up: its FILL line is low, and the head of the queue fills. -/
structure Released (b : BayId) (s t : State) : Prop where
  moved : LeakMoved b s t
  unposted : Unposted b s t
  leak : (t.bay b).leak = (s.bay b).leak
  lines : (t.record b).lines = { (s.record b).lines with fill := false }
  manifold : t.manifold = ⟨s.manifold.queue.head?, s.manifold.queue.tail⟩
  granted : ∀ c rest, s.manifold.queue = c :: rest → c ≠ b ∧ (t.record c).lines.fill = true ∧ (t.record c).phase = .fill ∧
    (t.bay c).leak.phase = .fill ∧ (t.bay c).leak.phaseStart = some s.now

/-- The bay that the manifold is granted to fills. -/
theorem grantHead_granted {c : BayId} (h : nextHolder s = some c) : ((grantHead s).record c).lines.fill = true ∧
    ((grantHead s).record c).phase = .fill ∧ ((grantHead s).bay c).leak.phase = .fill ∧ ((grantHead s).bay c).leak.phaseStart = some s.now := by
  rw [State.record, grantHead_bay_same h]
  refine ⟨?_, rfl, rfl, rfl⟩
  dsimp only
  split <;> rfl

theorem StepsOk.released (h : StepsOk s) (hFill : (s.bay b).leak.phase = .fill) : Released b s (releaseManifold b s) := by
  have hGranted := (h.holder b).mpr hFill
  have hNot : b ∉ s.manifold.queue := mt (h.queued b).mp (by simp [hFill])
  have hHead : nextHolder (freeManifold b s) = s.manifold.queue.head? := nextHolder_freeManifold b s
  have hOther : nextHolder (freeManifold b s) ≠ some b := by
    rw [hHead]
    exact fun e => hNot (List.mem_of_mem_head? e)
  have hBay : (releaseManifold b s).bay b = { s.bay b with record := { s.record b with lines := { (s.record b).lines with fill := false } } } := by
    rw [releaseManifold_holder hGranted, grantHead_bay_other hOther, freeManifold_bay, if_pos rfl]
  exact {
    moved := .of_bay (releaseManifold_rest ..) hBay
    unposted := by unfold Unposted; rw [State.record, hBay]; exact ⟨rfl, rfl, rfl⟩
    leak := by rw [hBay]
    lines := by rw [State.record, hBay]
    manifold := by
      rw [releaseManifold_holder hGranted, grantHead_manifold, hHead]
      cases hQueue : s.manifold.queue with
      | nil => simp [hQueue]
      | cons c rest => simp [hQueue]
    granted := fun c rest hQueue => by
      rw [hQueue, List.head?_cons] at hHead
      rw [releaseManifold_holder hGranted]
      exact ⟨fun e => hNot (by rw [hQueue, e]; exact List.mem_cons_self), grantHead_granted hHead⟩ }

/-! ## The fill limit and the settle time (R140 to R142) -/

theorem exec_leak_due {i : Instr} {ph : LeakPhase} {limit : Nat} {t0 : Time} {u : State}
    (hExec : exec i s = .next (if leakDue s b ph limit then u else s)) (hPhase : (s.bay b).leak.phase = ph)
    (hStart : (s.bay b).leak.phaseStart = some t0) :
    (elapsed s.now t0 < limit → exec i s = .next s) ∧ (limit ≤ elapsed s.now t0 → exec i s = .next u) := by
  have hDue := leakDue_iff (limit := limit) hPhase hStart
  rw [hExec]
  exact ⟨fun h => by rw [if_neg (mt hDue.mp (by omega))], fun h => by rw [if_pos (hDue.mpr h)]⟩

/-- The highest gauge pressure of a fill, 0 with no sample. -/
def fillRise (l : LeakUnit) : Int := match l.highest with | none => 0 | some h => h - l.ambient.getD 0

theorem fillRise_eq (b : BayId) (s : State) : (s.bay b).leak.highest.elim 0 (· - s.ambient b) = fillRise (s.bay b).leak := by
  unfold fillRise State.ambient
  cases (s.bay b).leak.highest <;> rfl

/-- Settles O37. -/
theorem fillAndSettleEndAtTheirLimits : Obligations.FillAndSettleEndAtTheirLimits := by
  intro b s o t0 t1 hSteps hOps hStart hState hOwner hStep vented
  have hLeakOps : s.leakOps b = o := by rw [State.leakOps, hOps]; rfl
  refine ⟨fun hPhase => ?_, fun hPhase => ?_⟩
  · obtain ⟨hEarly, hDue⟩ := exec_leak_due (i := .fillLimitExpiry b) (u := failFill b s) rfl hPhase hStart
    rw [hLeakOps] at hEarly hDue
    refine ⟨fun h => hEarly (by omega), fun h => ⟨failFill b s, hDue (by omega), ?_⟩⟩
    have hReleased := hSteps.released hPhase
    obtain ⟨hState', hOwner', -⟩ := hReleased.moved.kept
    have hAmbient : (releaseManifold b s).ambient b = s.ambient b := by rw [State.ambient, hReleased.leak]; rfl
    have hFail : failFill b s = enterVent b (postLeak b .fail (some .grossLeak) 65535 (fillRise (s.bay b).leak) (releaseManifold b s)) := by
      simp only [failFill, hAmbient, hReleased.leak, fillRise_eq]
    obtain ⟨hVent, hPosted⟩ := postVent_entered (b := b) (s := releaseManifold b s) (hState'.trans hState) .fail (some .grossLeak) 65535
      (fillRise (s.bay b).leak)
    rw [hReleased.leak, hReleased.moved.now, ← hFail] at hVent
    rw [hReleased.leak, hReleased.moved.stepResult, ← hFail] at hPosted
    exact ⟨⟨hReleased.moved.trans hVent.moved, hPosted.before hReleased.moved hReleased.unposted (by rw [hReleased.leak]), hVent.phase, hVent.leak,
      (hVent.lines (hOwner'.trans hOwner) (hState'.trans hState)).after_fill hReleased.lines hReleased.moved.config⟩,
      hVent.fill.trans (by rw [hReleased.lines]), by rw [hVent.manifold, hReleased.manifold], by rw [hVent.manifold, hReleased.manifold]⟩
  · obtain ⟨hEarly, hDue⟩ := exec_leak_due (i := .settleEnd b) (u := enterMeasure b s) rfl hPhase hStart
    rw [hLeakOps] at hEarly hDue
    refine ⟨fun h => hEarly (by omega), fun h => ⟨fun p1 T1 hp hT => ⟨_, hDue (by omega), ?_⟩, fun hMissing => ⟨_, hDue (by omega), ?_⟩⟩⟩
    · obtain ⟨hMeasure, hUnposted⟩ := enterMeasure_means hStep hp hT
      exact ⟨hMeasure.moved, hMeasure.manifold, hMeasure.phase, hUnposted, hMeasure.lines hOwner hState, hMeasure.fill, hMeasure.leak⟩
    · obtain ⟨hVent, hPosted⟩ := enterMeasure_short hStep hState hMissing
      exact ⟨⟨hVent.moved, hPosted, hVent.phase, hVent.leak, hVent.lines hOwner hState⟩, hVent.manifold, hVent.fill⟩

/-! ## The end of the measure time (R143 to R146) -/

theorem exec_measureEnd {p1 T1 : Int} (hMeans : (s.bay b).leak.startMeans = some (p1, T1)) : exec (.measureEnd b) s =
    .next (if leakDue s b .measure ((s.leakOps b).measureTime.toNat * 1000) then endMeasure b p1 T1 s else s) := by
  show Host.Outcome.next _ = _
  simp only [hMeans]

section MeasureEnd
variable {p1 T1 p2 T2 : Int}

theorem endMeasure_missing (h : (s.bay b).sensor.pressureNow = none ∨ (s.bay b).sensor.temperatureNow = none) :
    endMeasure b p1 T1 s = enterVent b (postLeak b .invalid (some .sensorShort) 0 0 s) := by
  simp only [endMeasure]
  split
  · next hp hT => simp [hp, hT] at h
  · rfl

theorem endMeasure_means (hOps : (s.bay b).leak.ops = some o) (hp : (s.bay b).sensor.pressureNow = some p2)
    (hT : (s.bay b).sensor.temperatureNow = some T2) : endMeasure b p1 T1 s =
      if ((T2 - T1).natAbs : Int) ≤ o.deltaTMax then computeLeak b p1 T1 p2 T2 s
      else if ((s.bay b).leak.retryCount : Int) < o.retries then
        enterSettle b (mapLeak b (fun u => { u with retryCount := u.retryCount + 1, notes := { u.notes with retried := true } }) s)
      else enterVent b (postLeak b .invalid (some .unstable) (T2 - T1) (s.bay b).leak.retryCount s) := by
  have hLeakOps : s.leakOps b = o := by rw [State.leakOps, hOps]; rfl
  simp only [endMeasure, hp, hT, hLeakOps]

end MeasureEnd

/-- Settles O38. -/
theorem measureEndGradesLeak : Obligations.MeasureEndGradesLeak := by
  intro b s o t0 p1 T1 hOps hPhase hStart hMeans hState hTime unit notes vented
  have hLeakOps : s.leakOps b = o := by rw [State.leakOps, hOps]; rfl
  obtain ⟨hEarly, hDue⟩ := exec_leak_due (exec_measureEnd hMeans) hPhase hStart
  rw [hLeakOps] at hEarly hDue
  refine ⟨fun h => hEarly (by omega), fun h => ?_⟩
  replace hDue := hDue (by omega)
  have hVented : ∀ {r n l} {u : State}, endMeasure b p1 T1 s = u → LeakEntered b .vent l s u → LeakPosted b r s u →
      l = { unit with phase := .vent, phaseStart := some s.now, startMeans := none, posted := true, notes := r.notes, retryCount := n } →
      vented r n := by
    rintro r n l u rfl hVent hPosted rfl
    exact ⟨_, hDue, hVent.moved, hPosted, hVent.manifold, hVent.phase, hVent.leak, hVent.fill, fun hOwner => hVent.lines hOwner hState⟩
  refine ⟨fun hMissing => ?_, fun p2 T2 hp hT => ⟨fun hStable => ?_, fun hUnstable hSpent => ?_, fun hUnstable hLeft => ?_⟩⟩
  · obtain ⟨hVent, hPosted⟩ := postVent_entered hState .invalid (some .sensorShort) 0 0
    exact hVented (endMeasure_missing hMissing) hVent hPosted rfl
  · intro dp q
    have hEnd := (endMeasure_means (p1 := p1) (T1 := T1) hOps hp hT).trans (if_pos hStable)
    have hNoted := mapLeak_kept (b := b) (s := s) fun u => { u with notes := q.2 }
    have hNotes : ((mapLeak b (fun u => { u with notes := q.2 }) s).bay b).leak = { unit with notes := q.2 } := by
      rw [mapLeak_bay_same]
    obtain ⟨hState', -⟩ := hNoted.moved.kept
    obtain ⟨hVent, hPosted⟩ := postVent_entered (hState'.trans hState) (if q.2.saturatedQ then .fail else band q.1 o.passLimit o.failLimit) none q.1
      (max (-32768) (min 32767 dp))
    rw [hNotes] at hVent hPosted
    rw [hNoted.moved.now] at hVent
    rw [hNoted.moved.stepResult] at hPosted
    refine hVented (hEnd.trans ?_) (.after_kept hNoted hVent) (hPosted.before hNoted.moved (mapLeak_unposted _) (by rw [hNotes])) rfl
    simp only [computeLeak, hLeakOps, clamp_eq_max_min _ (show (-32768 : Int) ≤ 32767 by decide)]
    rfl
  · have hEnd := (endMeasure_means (p1 := p1) (T1 := T1) hOps hp hT).trans ((if_neg (Int.not_le.mpr hUnstable)).trans (if_neg (Int.not_lt.mpr hSpent)))
    obtain ⟨hVent, hPosted⟩ := postVent_entered hState .invalid (some .unstable) (T2 - T1) (s.bay b).leak.retryCount
    exact hVented hEnd hVent hPosted rfl
  · intro measured
    have hEnd := (endMeasure_means (p1 := p1) (T1 := T1) hOps hp hT).trans ((if_neg (Int.not_le.mpr hUnstable)).trans (if_pos hLeft))
    have hNoted := mapLeak_kept (b := b) (s := s) fun u => { u with retryCount := u.retryCount + 1, notes := { u.notes with retried := true } }
    have hUnit : ((mapLeak b (fun u => { u with retryCount := u.retryCount + 1, notes := { u.notes with retried := true } }) s).bay b).leak =
        { unit with retryCount := unit.retryCount + 1, notes := { notes with retried := true } } := by
      rw [mapLeak_bay_same]
    have hSilent := mapLeak_unposted (b := b) (s := s) fun u => { u with retryCount := u.retryCount + 1, notes := { u.notes with retried := true } }
    generalize mapLeak b (fun u => { u with retryCount := u.retryCount + 1, notes := { u.notes with retried := true } }) s = v at hEnd hNoted hUnit hSilent
    obtain ⟨hState', -, -, hStep', -⟩ := hNoted.moved.kept
    have hOps' : (v.bay b).leak.ops = some o := by rw [hUnit]; exact hOps
    have hMeasured : ∀ {ph means l} {u : State}, enterSettle b v = u → LeakEntered b ph l v u ∧ Unposted b v u →
        ph = .settle ∨ ph = .measure → l = { unit with
          phase := ph, phaseStart := some s.now, startMeans := means, retryCount := unit.retryCount + 1,
          notes := { notes with retried := true } } → measured ph means := by
      rintro ph means l u rfl ⟨hEntered, hUnposted⟩ hPhase rfl
      have hFrom := LeakEntered.after_kept hNoted hEntered
      refine ⟨_, hDue.trans (congrArg _ hEnd), hFrom.moved, hFrom.manifold, hSilent.trans hUnposted, hFrom.phase, hFrom.fill,
        fun hOwner => ?_, hFrom.leak⟩
      have hLines := hFrom.lines hOwner hState
      obtain rfl | rfl := hPhase <;> exact hLines
    refine ⟨fun hTime => hMeasured rfl (enterSettle_stays hOps' hTime) (.inl rfl) (by rw [hUnit, hNoted.moved.now]),
      fun t1 hTime hStep => ⟨fun p1' T1' hp' hT' => ?_, fun hMissing => ?_⟩⟩
    · exact hMeasured rfl (enterSettle_means hOps' hTime (hStep'.trans hStep) (by rw [hNoted.moved.sensor, hNoted.moved.now]; exact hp')
        (by rw [hNoted.moved.sensor, hNoted.moved.now]; exact hT')) (.inr rfl) (by rw [hUnit, hNoted.moved.now])
    · obtain ⟨hVent, hPosted⟩ := enterSettle_short hOps' hTime (hStep'.trans hStep) (hState'.trans hState)
        (by rw [hNoted.moved.sensor, hNoted.moved.now]; exact hMissing)
      rw [hUnit, hNoted.moved.now] at hVent
      rw [hUnit, hNoted.moved.stepResult] at hPosted
      exact hVented hEnd (.after_kept hNoted hVent) (hPosted.before hNoted.moved hSilent (by rw [hUnit])) rfl

end Sys2Proof.Machine
end

section
/-! PROOF. What a pressure sample does to a LEAK step (R96, R131 to R133, R137 to R139, R141, R142, R147). -/

namespace Sys2Proof.Machine

variable {b : BayId} {s t u : State} {o : LeakOps}

/-! ## The word taken (R96) -/

/-- The state with a pressure word in its window. -/
def pressured (b : BayId) (payload : BitVec 22) (s : State) : State :=
  mapSensor b (fun _ => (s.bay b).sensor.takePressure s.now (payload.extractLsb' 0 16)) s

theorem exec_pressureWord_offer (b : BayId) (payload : BitVec 22) (s : State) : exec (.pressureWord b payload) s =
    .next (offerPressure b (4 * ((payload.extractLsb' 0 16).toNat : Int)) (pressured b payload s)) := by
  have hTaken : mapSensor b (SensorLink.takePressure s.now (wordField payload)) s = pressured b payload s := mapSensor_congr rfl
  show Host.Outcome.next (offerPressure b _ (mapSensor b (SensorLink.takePressure s.now (wordField payload)) s)) = _
  rw [hTaken]
  rfl

theorem pressured_blocks (b : BayId) (payload : BitVec 22) (s : State) : (pressured b payload s).record b = s.record b ∧
    ((pressured b payload s).bay b).config = (s.bay b).config ∧ ((pressured b payload s).bay b).leak = (s.bay b).leak ∧
    ((pressured b payload s).bay b).sensor = (s.bay b).sensor.takePressure s.now (payload.extractLsb' 0 16) := by
  unfold pressured
  rw [mapSensor_recordOf, mapSensor_bay_same]
  exact ⟨rfl, rfl, rfl, rfl⟩

/-- What is said of the record, said of the state before the word. -/
theorem unposted_pressured (payload : BitVec 22) : Unposted b (pressured b payload s) t ↔ Unposted b s t := by
  unfold Unposted
  rw [(pressured_blocks b payload s).1]

theorem linesDriven_pressured {sealed vented : Bool} (payload : BitVec 22) :
    LinesDriven b sealed vented (pressured b payload s) t ↔ LinesDriven b sealed vented s t := by
  obtain ⟨hRecord, hConfig, -⟩ := pressured_blocks b payload s
  rw [linesDriven_iff, linesDriven_iff, hRecord, hConfig]

/-! ## AMBIENT (R137, R138) -/

theorem askAmbient_eq {t0 : Time} (hStart : (s.bay b).leak.phaseStart = some t0) : askAmbient b s =
    match (s.bay b).sensor.pressureSince s.now t0 with
    | some pa => enterFillWait b (mapLeak b (fun u => { u with ambient := some pa }) s)
    | none => s := by
  simp only [askAmbient, hStart, Option.getD_some] <;> rfl

/-- The bay asks for the manifold, before the arbiter answers. -/
def asked (b : BayId) (pa : Int) (s : State) : State :=
  enterLeakPhase b .fillWait none (mapLeak b (fun u => { u with ambient := some pa }) s)

theorem asked_entered (pa : Int) : LeakEntered b .fillWait
    { (s.bay b).leak with phase := .fillWait, phaseStart := none, ambient := some pa, startMeans := none } s (asked b pa s) ∧
    Unposted b s (asked b pa s) := by
  have hKept := mapLeak_kept (b := b) (s := s) fun u => { u with ambient := some pa }
  have hEntered := enterLeakPhase_entered (b := b) (ph := .fillWait) (s := mapLeak b (fun u => { u with ambient := some pa }) s) nofun none
  rw [mapLeak_bay_same] at hEntered
  exact ⟨.after_kept hKept hEntered, (mapLeak_unposted _).trans (enterLeakPhase_unposted _)⟩

/-- The bay stands in the queue of the arbiter, before the arbiter answers. -/
def requested (b : BayId) (pa : Int) (s : State) : State :=
  { asked b pa s with manifold := { s.manifold with queue := s.manifold.queue ++ [b] } }

theorem enterFillWait_requested (pa : Int) :
    enterFillWait b (mapLeak b (fun u => { u with ambient := some pa }) s) = grantHead (requested b pa s) := by
  have hManifold : (asked b pa s).manifold = s.manifold := (asked_entered pa).1.manifold
  rw [requested, ← hManifold]
  rfl

theorem nextHolder_requested (pa : Int) (hBusy : s.manifold.queue ≠ [] → s.manifold.granted ≠ none) :
    nextHolder (requested b pa s) = if s.manifold.granted = none then some b else none := by
  unfold nextHolder
  show (if s.manifold.granted = none then (s.manifold.queue ++ [b]).head? else none) = _
  split
  · next h =>
    have hQueue : s.manifold.queue = [] := by
      by_contra hc
      exact hBusy hc h
    rw [hQueue]; rfl
  · rfl

/-- A request at a FREE manifold is granted (R132, R139). -/
theorem requested_granted (pa : Int) (hHolder : nextHolder (requested b pa s) = some b) :
    LeakMoved b s (grantHead (requested b pa s)) ∧ Unposted b s (grantHead (requested b pa s)) ∧
    ((s.record b).owner = .sequencer → (s.record b).state = .running → LinesDriven b true false s (grantHead (requested b pa s))) ∧
    ((grantHead (requested b pa s)).bay b).leak = { (s.bay b).leak with
      phase := .fill, phaseStart := some s.now, ambient := some pa, startMeans := none, highest := none } := by
  obtain ⟨hAsked, hUnposted⟩ := asked_entered (b := b) (s := s) pa
  obtain ⟨hState, hOwner, -⟩ := hAsked.moved.kept
  have hBay := grantHead_bay_same hHolder
  have hRecord : (grantHead (requested b pa s)).record b = _ := congrArg Bay.record hBay
  have hMoved : LeakMoved b (asked b pa s) (grantHead (requested b pa s)) := .of_bay (grantHead_rest _) hBay
  refine ⟨hAsked.moved.trans hMoved, hUnposted.trans ?_, fun hSequencer hRunning => ?_, ?_⟩
  · unfold Unposted
    rw [hRecord]
    exact ⟨rfl, rfl, rfl⟩
  · have hLines : LinesDriven b true (decide ((.fill : LeakPhase) = .ambient ∨ (.fill : LeakPhase) = .vent)) (asked b pa s)
        (grantHead (requested b pa s)) := by
      refine linesDriven_of_sequencer (f := true) nofun ?_
      rw [hRecord, ← hState.trans hRunning]
      exact if_pos (hOwner.trans hSequencer)
    exact (hAsked.lines hSequencer hRunning).after hAsked.moved.config hLines
  · rw [hBay, show ((requested b pa s).bay b).leak = _ from hAsked.leak, show (requested b pa s).now = _ from hAsked.moved.now]

/-- The end of AMBIENT, the manifold FREE or held (R132, R137 to R139). -/
theorem enterFillWait_ended (pa : Int) (hBusy : s.manifold.queue ≠ [] → s.manifold.granted ≠ none) :
    AmbientEnded b pa s (enterFillWait b (mapLeak b (fun u => { u with ambient := some pa }) s)) := by
  rw [enterFillWait_requested]
  have hNext := nextHolder_requested (b := b) pa hBusy
  cases hGranted : s.manifold.granted with
  | none =>
    rw [if_pos hGranted] at hNext
    obtain ⟨hMoved, hUnposted, hLines, hLeak⟩ := requested_granted pa hNext
    obtain ⟨hFill, hPhase, -⟩ := grantHead_granted hNext
    have hQueue : s.manifold.queue = [] := by
      by_contra hc
      exact hBusy hc hGranted
    have hManifold : (grantHead (requested b pa s)).manifold = ⟨some b, []⟩ := by
      rw [grantHead_manifold, hNext]
      show ManifoldArbiter.mk (some b) ((s.manifold.queue ++ [b]).drop 1) = _
      rw [hQueue]; rfl
    exact ⟨hMoved, hUnposted, hLines, fun _ => ⟨hLeak, hPhase, hFill, hManifold⟩, fun c hc => absurd (hGranted.symm.trans hc) nofun⟩
  | some c =>
    rw [if_neg (by rw [hGranted]; nofun)] at hNext
    rw [grantHead_of_none hNext]
    obtain ⟨hAsked, hUnposted⟩ := asked_entered (b := b) (s := s) pa
    have hShared : LeakMoved b (asked b pa s) (requested b pa s) := .of_bay rfl rfl
    refine ⟨hAsked.moved.trans hShared, hUnposted, hAsked.lines, fun h => absurd (hGranted.symm.trans h) nofun, fun c' hc => ?_⟩
    rw [← hc]
    exact ⟨hAsked.leak, hAsked.phase, hAsked.fill, rfl⟩

/-! ## FILL (R133, R139, R141, R142) -/

theorem mapLeak_congr {f g : LeakUnit → LeakUnit} (h : f (s.bay b).leak = g (s.bay b).leak) : mapLeak b f s = mapLeak b g s :=
  mapBay_congr b _ _ s (by rw [h])

/-- The highest sample of a fill after the sample `p`. -/
def sampled (b : BayId) (p : Int) (s : State) : State :=
  mapLeak b (fun u => { u with highest := some (max p ((s.bay b).leak.highest.getD p)) }) s

theorem fillSample_eq {p pa : Int} (hOps : (s.bay b).leak.ops = some o) (hAmbient : (s.bay b).leak.ambient = some pa) : fillSample b p s =
    if pa + o.pressure ≤ p then enterSettle b (releaseManifold b (sampled b p s)) else sampled b p s := by
  have hSampled : mapLeak b (fun u => { u with highest := some (max p (u.highest.getD p)) }) s = sampled b p s := mapLeak_congr rfl
  have hLeak : ((sampled b p s).bay b).leak = { (s.bay b).leak with highest := some (max p ((s.bay b).leak.highest.getD p)) } := by
    rw [sampled, mapLeak_bay_same]
  have hPa : (sampled b p s).ambient b = pa := by rw [State.ambient, hLeak]; simp [hAmbient]
  have hO : (sampled b p s).leakOps b = o := by rw [State.leakOps, hLeak]; simp [hOps]
  simp only [fillSample, hSampled, hPa, hO]

/-- A fill that has ended and gone on into phase `ph`. -/
theorem Released.entered {v : State} {ph : LeakPhase} {l : LeakUnit} (h : Released b s v) (h' : LeakEntered b ph l v t) :
    LeakMoved b s t ∧ (t.record b).lines.fill = false ∧ (s.manifold.queue = [] → t.manifold = ⟨none, []⟩) ∧
    (∀ c rest, s.manifold.queue = c :: rest → t.manifold = ⟨some c, rest⟩ ∧ (t.record c).lines.fill = true ∧ (t.record c).phase = .fill ∧
      (t.bay c).leak.phase = .fill ∧ (t.bay c).leak.phaseStart = some s.now) ∧
    ((s.record b).owner = .sequencer → (s.record b).state = .running → LinesDriven b true (decide (ph = .ambient ∨ ph = .vent)) s t) := by
  obtain ⟨hState, hOwner, -⟩ := h.moved.kept
  refine ⟨h.moved.trans h'.moved, h'.fill.trans (by rw [h.lines]), fun hQueue => ?_, fun c rest hQueue => ?_, fun hSequencer hRunning => ?_⟩
  · rw [h'.manifold, h.manifold, hQueue]; rfl
  · obtain ⟨hc, hGranted⟩ := h.granted c rest hQueue
    rw [h'.manifold, h.manifold, hQueue, State.record, h'.others c hc]
    exact ⟨rfl, hGranted⟩
  · exact (h'.lines (hOwner.trans hSequencer) (hState.trans hRunning)).after_fill h.lines h.moved.config

/-! ## VENT (R147) -/

/-- The unit of bay `b` is IDLE again and the lines follow, before the boundary. -/
def vented (b : BayId) (s : State) : State := refreshLines b (mapLeak b LeakUnit.ended s)

theorem vented_facts (hOwner : (s.record b).owner = .sequencer) (hState : (s.record b).state = .running) :
    ((vented b s).bay b).leak = { LeakUnit.reset with highest := (s.bay b).leak.highest } ∧ LeakMoved b s (vented b s) ∧
    (vented b s).manifold = s.manifold ∧ Unposted b s (vented b s) ∧ LinesDriven b false false s (vented b s) ∧
    ((vented b s).record b).lines.fill = (s.record b).lines.fill := by
  have hBay : (vented b s).bay b = _ := refreshLines_bay_same b (mapLeak b LeakUnit.ended s)
  rw [mapLeak_bay_same, mapLeak_recordOf] at hBay
  have hRecord : (vented b s).record b = _ := congrArg Bay.record hBay
  have hLines : ((vented b s).record b).lines = sequencerLines (s.bay b).config.map .running .idle (s.record b).lines := by
    rw [hRecord]
    exact (if_pos hOwner).trans (by rw [hState]; rfl)
  refine ⟨congrArg Bay.leak hBay, .of_bay (by simp [vented]) hBay, by simp [vented], ?_, ?_, by rw [hLines]; rfl⟩
  · unfold Unposted
    rw [hRecord]
    exact ⟨rfl, rfl, rfl⟩
  · rw [linesDriven_iff, hLines]
    simp [sequencerLines]

/-- Settles O36. -/
theorem pressureSamplesDriveLeakTest : Obligations.PressureSamplesDriveLeakTest := by
  intro b payload s o t0 word p link taken hSteps hOps hStart
  obtain ⟨hRecord, hConfig, hLeak, hSensor⟩ := pressured_blocks b payload s
  have hExec := exec_pressureWord_offer b payload s
  replace hLeak : (taken.bay b).leak = (s.bay b).leak := hLeak
  have hSteps' : StepsOk taken := hSteps.mapSensor _
  have hOps' : (taken.bay b).leak.ops = some o := hLeak ▸ hOps
  have hRunning : (s.bay b).leak.phase ≠ .idle → (taken.record b).state = .running := fun h => hRecord ▸ hSteps.leak_running h
  refine ⟨fun hPhase => ?_, fun pa hAmbient => ?_⟩
  · have hOffer : offerPressure b p taken = askAmbient b taken := by
      simp only [offerPressure, show (taken.bay b).leak.phase = .ambient from hLeak ▸ hPhase]
    have hAsk := askAmbient_eq (s := taken) (b := b) (t0 := t0) (hLeak ▸ hStart)
    rw [show (taken.bay b).sensor = link from hSensor] at hAsk
    refine ⟨fun hNone => ?_, fun pa hMean => ⟨_, hExec.trans (congrArg _ (hOffer.trans hAsk)), ?_⟩⟩
    · rw [show taken.now = s.now from rfl, hNone] at hAsk
      exact hExec.trans (congrArg _ (hOffer.trans hAsk))
    · rw [show taken.now = s.now from rfl, hMean]
      exact enterFillWait_ended pa hSteps'.busy
  intro high
  have hAmbient' : (taken.bay b).leak.ambient = some pa := hLeak ▸ hAmbient
  have hSampled : sampled b p taken = mapLeak b (fun u => { u with highest := high }) taken := by
    unfold sampled
    rw [show (taken.bay b).leak = (s.bay b).leak from hLeak]
  have hFill : (s.bay b).leak.phase = .fill → exec (.pressureWord b payload) s =
      .next (if pa + o.pressure ≤ p then enterSettle b (releaseManifold b (sampled b p taken)) else sampled b p taken) := fun hPhase => by
    refine hExec.trans (congrArg _ ?_)
    rw [← fillSample_eq hOps' hAmbient']
    simp only [offerPressure, show ((pressured b payload s).bay b).leak.phase = .fill from hLeak ▸ hPhase]
    rfl
  have hSampledLeak : ((sampled b p taken).bay b).leak = { (s.bay b).leak with highest := high } := by
    rw [hSampled, mapLeak_bay_same, hLeak]
  have hKept : LeakKept b taken (sampled b p taken) := mapLeak_kept _
  have hSilent : Unposted b taken (sampled b p taken) := mapLeak_unposted _
  have hSampledSteps : StepsOk (sampled b p taken) := hSteps'.mapLeak rfl
  have hReleased : (s.bay b).leak.phase = .fill → Released b (sampled b p taken) (releaseManifold b (sampled b p taken)) := fun hPhase =>
    hSampledSteps.released (by rw [hSampledLeak]; exact hPhase)
  obtain ⟨hKeptState, hKeptOwner, -, hKeptStart, -⟩ := hKept.moved.kept
  have hResult : ∀ c notes, stepResult taken b .leak .leak .invalid c 0 0 notes = stepResult s b .leak .leak .invalid c 0 0 notes := fun c notes => by
    rw [stepResult, show taken.record b = s.record b from hRecord]; rfl
  have hEnded : ∀ {ph l} {t : State}, (s.bay b).leak.phase = .fill → LeakEntered b ph l (releaseManifold b (sampled b p taken)) t →
      LeakMoved b taken t ∧ (t.record b).lines.fill = false ∧ (s.manifold.queue = [] → t.manifold = ⟨none, []⟩) ∧
      (∀ c rest, s.manifold.queue = c :: rest → t.manifold = ⟨some c, rest⟩ ∧ (t.record c).lines.fill = true ∧
        (t.record c).phase = .fill ∧ (t.bay c).leak.phase = .fill ∧ (t.bay c).leak.phaseStart = some s.now) ∧
      ((s.record b).owner = .sequencer → LinesDriven b true (decide (ph = .ambient ∨ ph = .vent)) s t) := fun hPhase hEntered => by
    obtain ⟨hMoved, hFillLine, hEmpty, hNext, hLines⟩ := (hReleased hPhase).entered hEntered
    refine ⟨hKept.moved.trans hMoved, hFillLine, hEmpty, hNext, fun hOwner => ?_⟩
    rw [← linesDriven_pressured payload]
    refine LinesDriven.after_fill (f := (taken.record b).lines.fill) hKept.lines hKept.moved.config (hLines ?_ ?_)
    · rw [hKeptOwner, show taken.record b = s.record b from hRecord, hOwner]
    · rw [hKeptState, hRunning (by rw [hPhase]; nofun)]
  have hBefore : ∀ {t : State}, (s.bay b).leak.phase = .fill → Unposted b (releaseManifold b (sampled b p taken)) t → Unposted b s t :=
    fun hPhase h => (unposted_pressured payload).mp (hSilent.trans ((hReleased hPhase).unposted.trans h))
  have hUnit : (s.bay b).leak.phase = .fill → ((releaseManifold b (sampled b p taken)).bay b).leak = { (s.bay b).leak with highest := high } :=
    fun hPhase => (hReleased hPhase).leak.trans hSampledLeak
  refine ⟨fun hPhase hBelow => ?_, fun hPhase hAbove hTime => ?_, fun t1 hPhase hAbove hTime hStep => ?_, fun hPhase hAbove => ?_,
    fun hPhase hBelow hOwner => ?_⟩
  · rw [hFill hPhase, if_neg (by omega), hSampled]
  · refine ⟨_, (hFill hPhase).trans (congrArg _ (if_pos hAbove)), ?_⟩
    obtain ⟨hEntered, hUnposted⟩ := enterSettle_stays (b := b) (s := releaseManifold b (sampled b p taken)) (by rw [hUnit hPhase]; exact hOps) hTime
    obtain ⟨hMoved, hFillLine, hEmpty, hNext, hLines⟩ := hEnded hPhase hEntered
    rw [hUnit hPhase] at hEntered
    exact ⟨hEntered.leak.trans (by rw [(hReleased hPhase).moved.now]; rfl), hMoved, hBefore hPhase hUnposted, hLines, hEntered.phase, hFillLine,
      hEmpty, hNext⟩
  · have hV := hReleased hPhase
    obtain ⟨hState', -, -, hStart', -⟩ := hV.moved.kept
    have hStepV : ((releaseManifold b (sampled b p taken)).record b).stepStart = some t1 := by
      rw [hStart', hKeptStart, show taken.record b = s.record b from hRecord, hStep]
    have hStateV : ((releaseManifold b (sampled b p taken)).record b).state = .running := by
      rw [hState', hKeptState, hRunning (by rw [hPhase]; nofun)]
    have hLink : ((releaseManifold b (sampled b p taken)).bay b).sensor = link := (hV.moved.sensor.trans hKept.moved.sensor).trans hSensor
    have hNow : (releaseManifold b (sampled b p taken)).now = s.now := hV.moved.now
    have hOpsV : ((releaseManifold b (sampled b p taken)).bay b).leak.ops = some o := by rw [hUnit hPhase]; exact hOps
    have hDone := (hFill hPhase).trans (congrArg Host.Outcome.next (if_pos hAbove))
    by_cases hMeans : ∃ p1 T1, link.pressureSince s.now t1 = some p1 ∧ link.temperatureSince s.now t1 = some T1
    · obtain ⟨p1, T1, hp, hT⟩ := hMeans
      obtain ⟨hEntered, hUnposted⟩ := enterSettle_means hOpsV hTime hStepV (by rw [hLink, hNow]; exact hp) (by rw [hLink, hNow]; exact hT)
      obtain ⟨hMoved, hFillLine, hEmpty, hNext, hLines⟩ := hEnded hPhase hEntered
      rw [hUnit hPhase, hNow] at hEntered
      refine ⟨_, hDone, hMoved, hFillLine, hEmpty, hNext, fun p1' T1' hp' hT' => ?_, fun h => ?_⟩
      · obtain rfl : p1 = p1' := Option.some.inj (hp.symm.trans hp')
        obtain rfl : T1 = T1' := Option.some.inj (hT.symm.trans hT')
        exact ⟨hEntered.phase, hBefore hPhase hUnposted, hLines, hEntered.leak⟩
      · simp [hp, hT] at h
    · have hMissing : link.pressureSince s.now t1 = none ∨ link.temperatureSince s.now t1 = none := by
        cases hp : link.pressureSince s.now t1 with
        | none => exact .inl rfl
        | some p1 =>
          cases hT : link.temperatureSince s.now t1 with
          | none => exact .inr rfl
          | some T1 => exact absurd ⟨p1, T1, hp, hT⟩ hMeans
      obtain ⟨hEntered, hPosted⟩ := enterSettle_short hOpsV hTime hStepV hStateV (by rw [hLink, hNow]; exact hMissing)
      obtain ⟨hMoved, hFillLine, hEmpty, hNext, hLines⟩ := hEnded hPhase hEntered
      rw [hUnit hPhase, hNow] at hEntered
      rw [hUnit hPhase, hV.moved.stepResult, hKept.moved.stepResult, hResult] at hPosted
      refine ⟨_, hDone, hMoved, hFillLine, hEmpty, hNext, fun p1 T1 hp hT => absurd ⟨p1, T1, hp, hT⟩ hMeans, fun _ => ⟨hEntered.phase,
        hEntered.leak, ?_, hLines⟩⟩
      exact (hPosted.before hV.moved hV.unposted (by rw [hV.leak])).before hKept.moved hSilent (by rw [hSampledLeak, hLeak])
  · have hOffer : offerPressure b p taken = taken := by
      simp only [offerPressure, hLeak, hPhase, State.ambient, hAmbient, Option.getD_some, if_neg (show ¬p ≤ pa + 500 by omega)]
    exact hExec.trans (congrArg _ hOffer)
  · have hOffer : offerPressure b p taken = finishVent b taken := by
      simp only [offerPressure, hLeak, hPhase, State.ambient, hAmbient, Option.getD_some, if_pos hBelow]
    obtain ⟨hUnitV, hMoved, hManifold, hUnposted, hLines, hFillLine⟩ := vented_facts (b := b) (s := taken)
      (by rw [show taken.record b = s.record b from hRecord]; exact hOwner) (hRunning (by rw [hPhase]; nofun))
    rw [hLeak] at hUnitV
    refine ⟨vented b taken, hExec.trans (congrArg _ hOffer), hUnitV, hMoved, hManifold, (unposted_pressured payload).mp hUnposted,
      (linesDriven_pressured payload).mp hLines, ?_⟩
    rw [hFillLine, show taken.record b = s.record b from hRecord]

end Sys2Proof.Machine
end

section
/-! PROOF. HANDOVER: the start of a plan, and the axle with no variant (O47). -/

namespace Sys2Proof.Machine

variable {b : BayId} {s : State}

/-! ## The bay that begins its plan (R12, R25, R75, R105) -/

/-- The bay has its plan, owner and blocks, and its lines are not yet driven. -/
def takePlan (b : BayId) (v : VariantEntry) (s : State) : State :=
  mapDrive b (fun d => { d with enable := true, target := 0, x := 0 })
    (mapSensor b (fun l => { l with lossWatch := some LossWatch.started })
      (setBayState b .running (setOwner b .sequencer (mapRecord b (fun r =>
        { r with planNumber := some v.plan, planVersion := some (s.store.entry v.plan).version, slot := (s.store.entry v.plan).head })
        (takeReference v.plan s)))))

theorem beginPlan_eq (b : BayId) (v : VariantEntry) (s : State) : beginPlan b v s = refreshLines b (takePlan b v s) := rfl

theorem takePlan_record (b : BayId) (v : VariantEntry) (s : State) : (takePlan b v s).record b = { s.record b with
    planNumber := some v.plan, planVersion := some (s.store.entry v.plan).version, slot := (s.store.entry v.plan).head,
    owner := .sequencer, state := .running } := by
  simp only [takePlan, mapDrive_recordOf, mapSensor_recordOf, setBayState_record_same, setOwner_record_same, mapRecord_recordOf_same]
  rfl

theorem takePlan_blocks (b : BayId) (v : VariantEntry) (s : State) :
    ((takePlan b v s).bay b).config = (s.bay b).config ∧ ((takePlan b v s).bay b).leak = (s.bay b).leak ∧
    ((takePlan b v s).bay b).noise = (s.bay b).noise ∧
    ((takePlan b v s).bay b).drive = { (s.bay b).drive with enable := true, target := 0, x := 0 } ∧
    ((takePlan b v s).bay b).sensor = { (s.bay b).sensor with lossWatch := some ⟨0, 0, false⟩ } := by
  simp only [takePlan, mapDrive_bay_same, mapSensor_bay_same, setBayState, setOwner, raise_bay, mapRecord_bay_same]
  exact ⟨rfl, rfl, rfl, rfl, rfl⟩

theorem takePlan_raised (b : BayId) (v : VariantEntry) (s : State) : Raised (takePlan b v s) (beginPlan b v s) := refreshLines_raised ..

theorem beginPlan_lines (b : BayId) (v : VariantEntry) (s : State) : ((beginPlan b v s).record b).lines =
    sequencerLines (s.bay b).config.map .running (s.bay b).leak.phase (s.record b).lines := by
  obtain ⟨hConfig, hLeak, -⟩ := takePlan_blocks b v s
  rw [beginPlan_eq, refreshLines_record, takePlan_record, hConfig, hLeak]
  simp only [if_true]

theorem beginPlan_units (b : BayId) (v : VariantEntry) (s : State) : ((beginPlan b v s).bay b).noise = (s.bay b).noise ∧
    ((beginPlan b v s).bay b).leak = (s.bay b).leak ∧
    ((beginPlan b v s).bay b).sensor = { (s.bay b).sensor with lossWatch := some ⟨0, 0, false⟩ } := by
  obtain ⟨-, hLeak, hNoise, -, hSensor⟩ := takePlan_blocks b v s
  rw [beginPlan_eq, refreshLines_noise, refreshLines_leak, refreshLines_sensor]
  exact ⟨hNoise, hLeak, hSensor⟩

theorem State.eq_of_rest {s t : State} (hCell : t.cell = s.cell) (hReducer : t.reducer = s.reducer) (hManifold : t.manifold = s.manifold)
    (hReports : t.reports = s.reports) (hPending : t.pending = s.pending) :
    t = { s with store := t.store, bays := t.bays, ports := t.ports } := by
  rw [← hCell, ← hReducer, ← hManifold, ← hReports, ← hPending]

theorem beginPlan_shared (b : BayId) (v : VariantEntry) (s : State) : beginPlan b v s =
    { s with store := (beginPlan b v s).store, bays := (beginPlan b v s).bays, ports := (beginPlan b v s).ports } := by
  obtain ⟨hCell, -, hReducer, hReports, -, hPending⟩ := State.rest_eq_iff.mp (refreshLines_rest b (takePlan b v s))
  exact State.eq_of_rest hCell hReducer (refreshLines_manifold ..) hReports hPending

theorem beginPlan_offered (b : BayId) (v : VariantEntry) (s : State) :
    Offered (.owner b) (beginPlan b v s) ∧ Offered (.bayState b) (beginPlan b v s) := by
  have hState : Offered (.bayState b) (takePlan b v s) := (offered_raise _ _).raised (.of_ports rfl)
  have hOwner : Offered (.owner b) (takePlan b v s) := (Offered.of_raise (setBayState_raised ..)).raised (.of_ports rfl)
  exact ⟨hOwner.raised (takePlan_raised ..), hState.raised (takePlan_raised ..)⟩

/-! ## HANDOVER (R11, R12) -/

/-- The axle's handover time is taken (R12). -/
def timed (b : BayId) (s : State) : State := mapRecord b (fun r => { r with handoverTime := some s.now }) s

theorem timed_bay (b : BayId) (s : State) : (timed b s).bay b = { s.bay b with record :=
    { s.record b with handoverTime := some s.now } } := mapRecord_bay_same ..

theorem timed_record (b : BayId) (s : State) : (timed b s).record b = { s.record b with handoverTime := some s.now } :=
  congrArg Bay.record (timed_bay b s)

theorem timed_bay_other {c : BayId} (hc : c ≠ b) : (timed b s).bay c = s.bay c := mapRecord_bay_other _ _ hc

/-- A HANDOVER that nothing refuses. -/
theorem runHandover_taken (hOwner : (s.record b).owner ≠ .cell) (hState : (s.record b).state = .loaded) (hCell : s.cell.state = .running)
    (hGrd : (s.record b).inputs.grd = true) (hClmp : (s.record b).inputs.clmp = true) (hCpld : (s.record b).inputs.cpld = true) :
    runHandover b s = match s.store.variant (s.record b).variantCode with
      | some v => accept (bytesOf 1 (bayStateCode .running)) (startPlan b v (timed b s))
      | none => accept (bytesOf 1 (bayStateCode .finished)) (divertBay b .unknownVariant (timed b s)) := by
  unfold runHandover
  simp only [hOwner, hState, hCell, hGrd, hClmp, hCpld, if_false, Bool.true_eq_false, or_self]
  rfl

/-- Settles O47. -/
theorem handoverStartsPlanOrDiverts : Obligations.HandoverStartsPlanOrDiverts := by
  intro b n s hb i r refused
  have handed : ∀ {st payload t}, runHandover b s = ⟨st, payload, t⟩ → exec i s = .next (answered .line i st payload t) :=
    exec_onBay rfl (List.mem_singleton.mpr rfl) rfl hb
  refine ⟨fun ho => handed (if_pos ho), fun ho hs => handed ((if_neg ho).trans (if_pos hs)), fun ho hs => ⟨fun hc => ?stopped,
    fun hc hg => ?unguarded, fun hc hg h => ?loose, fun hc hg hl hd => ⟨fun v hv hOk hCode hPlan => ?started, fun hNone => ?diverted⟩⟩⟩
  case stopped => exact handed ((if_neg ho).trans ((if_neg (not_not.mpr hs)).trans (if_pos hc)))
  case unguarded => exact handed ((if_neg ho).trans ((if_neg (not_not.mpr hs)).trans ((if_neg (not_not.mpr hc)).trans (if_pos hg))))
  case loose =>
    exact handed ((if_neg ho).trans ((if_neg (not_not.mpr hs)).trans ((if_neg (not_not.mpr hc)).trans
      ((if_neg (fun h => Bool.noConfusion (h.symm.trans hg))).trans (if_pos h)))))
  case started =>
    obtain ⟨hNoise, hLeak, hSensor⟩ := beginPlan_units b v (timed b s)
    obtain ⟨hConfig, hDrive⟩ := beginPlan_blocks b v (timed b s)
    obtain ⟨hOwner, hState⟩ := beginPlan_offered b v (timed b s)
    obtain ⟨l, hRecord⟩ := beginPlan_record_same b v (timed b s)
    have hStore : (beginPlan b v (timed b s)).store =
        s.store.setEntry v.plan { s.store.entry v.plan with refCount := (s.store.entry v.plan).refCount + 1 } := beginPlan_store ..
    have hLines : ((beginPlan b v (timed b s)).record b).lines =
        sequencerLines (s.bay b).config.map .running (s.bay b).leak.phase r.lines := by
      rw [beginPlan_lines, timed_record, timed_bay]
    have hVariant : s.store.variant (s.record b).variantCode = some v := hCode ▸ hOk.variant_eq hv
    refine ⟨beginPlan b v (timed b s), handed ?_, ?_, ?_, fun m hm => ?_, ?_, ?_, ?_, ?_, ?_, ?_, fun c hc => ?_, ?_, ?_, ?_, ?_,
      fun h => ?_, fun h => ?_, fun h => ?_, fun h => ?_, ?_, hOwner, hState⟩
    · rw [runHandover_taken ho hs hc hg hl hd, hVariant]; rfl
    · rw [hRecord, timed_record]; rfl
    · rw [hStore, PlanStore.entry_setEntry_same _ _ hPlan]
    · rw [hStore, PlanStore.entry_setEntry_other _ _ hm]
    · rw [hStore, PlanStore.setEntry_slots]
    · rw [hStore, PlanStore.setEntry_variants]
    · rw [hStore, PlanStore.setEntry_common]
    · rw [hConfig, timed_bay]
    · rw [hNoise, timed_bay]
    · rw [hLeak, timed_bay]
    · rw [beginPlan_bay_other _ _ hc, timed_bay_other hc]
    · exact beginPlan_shared b v (timed b s)
    · exact (beginPlan_raised b v (timed b s)).portsRaised
    · rw [hDrive, timed_bay]
    · rw [hSensor, timed_bay]
    · rw [hLines]; exact if_pos h
    · rw [hLines]; exact if_pos h
    · rw [hLines]; exact if_neg (by rw [h]; decide)
    · rw [linesDriven_iff, hLines, h]; simp [sequencerLines, r]
    · rw [hLines]; rfl
  case diverted =>
    have hVariant : s.store.variant (s.record b).variantCode = none := variant_eq_none_iff.mpr hNone
    refine ⟨divertBay b .unknownVariant (timed b s), handed ?_, ?_, divertBay_shared b .unknownVariant (timed b s),
      (divertBay_raised b .unknownVariant (timed b s)).portsRaised, divertBay_offered b .unknownVariant (timed b s), ?_⟩
    · rw [runHandover_taken ho hs hc hg hl hd, hVariant]; rfl
    · rw [divertBay_bay, timed_bay, timed_record]
    · have hTaken := divertBay_taken b .unknownVariant (timed b s)
      rw [reportOf, timed_record] at hTaken
      exact hTaken

end Sys2Proof.Machine
end

section
/-! PROOF. A boundary: the requests, the link and its skip test, the entry into CLOSING, and chains within their 64 steps (O48). -/

namespace Sys2Proof.Machine

variable {b : BayId} {s : State}

/-! ## A step that is over at once leaves the slots (R54, R57) -/

theorem startWork_over_store {ops : Operands} {s : State} (h : (startWork b ops s).1 = true) : (startWork b ops s).2.store = s.store := by
  cases ops with
  | ramp o =>
    simp only [startWork, startRamp] at h ⊢
    split at h
    · next hd => rw [if_pos hd]; rfl
    · split at h <;> cases h
  | dwell o => cases h
  | listen o =>
    simp only [startWork, startListen] at h ⊢
    split at h
    · cases h
    · split at h
      · next hx => rw [if_pos hx]; exact (postResult_shared ..).2.1
      · cases h
  | leak o =>
    simp only [startWork, startLeak] at h ⊢
    split at h
    · next hx => rw [if_pos hx]; exact (postResult_shared ..).2.1
    · next hx =>
      rw [if_neg hx]
      split at h
      · next hy => rw [if_pos hy]; exact (postResult_shared ..).2.1
      · cases h

theorem beginStep_over_store {rec : StepRecord} {s : State} (h : (beginStep b rec s).1 = true) : (beginStep b rec s).2.store = s.store := by
  simp only [beginStep] at h ⊢
  split at h
  · cases h
  · split at h
    · exact (postResult_shared ..).2.1.trans rfl
    · exact startWork_over_store h

theorem skipTest_slotAt (b : BayId) (rec : StepRecord) (s : State) (k : Nat) :
    (skipTest b rec s).2.store.slotAt k = s.store.slotAt k := by
  unfold skipTest
  split
  · have hSlots := (auditDecrement_fields s.store (rec.auditCell.getD 56)).2.1
    simp only [mapRecord_store, PlanStore.slotAt, hSlots]
  · rfl

theorem enterStep_over_slotAt {link : Nat} {rec : StepRecord} {s : State} (h : (enterStep b link rec s).1 = true) (k : Nat) :
    (enterStep b link rec s).2.store.slotAt k = s.store.slotAt k := by
  simp only [enterStep] at h ⊢
  split at h
  · cases h
  · next hw =>
    rw [if_neg hw]
    split at h
    · next hr => rw [if_pos hr, beginStep_over_store h, skipTest_slotAt]; rfl
    · next hr => rw [if_neg hr, skipTest_slotAt]; rfl

/-! ## A chain comes to its end within its steps (R36, R54) -/

/-- A step's own part of the record is over (R54). -/
def stepEnded (b : BayId) (s : State) : State :=
  mapRecord b (fun r => { r with phase := .none, latched := none, startTemperature := none }) s

theorem walk_fuel {n link : Nat} {path : List Nat} {s : State} (h : s.store.runs n path link 255) {fuel fuel' : Nat}
    (hFuel : path.length < fuel) (hFuel' : path.length < fuel') : walk fuel b link s = walk fuel' b link s := by
  induction path generalizing link s fuel fuel' with
  | nil =>
    obtain ⟨m, rfl⟩ := Nat.exists_eq_add_one.mpr hFuel
    obtain ⟨m', rfl⟩ := Nat.exists_eq_add_one.mpr hFuel'
    have hLink : link = Config.endLink := h
    simp only [walk, if_pos hLink]
  | cons x path ih =>
    obtain ⟨rfl, rec, hSlot, hRest⟩ := h
    obtain ⟨m, rfl⟩ := Nat.exists_eq_add_one.mpr (Nat.zero_lt_of_lt hFuel)
    obtain ⟨m', rfl⟩ := Nat.exists_eq_add_one.mpr (Nat.zero_lt_of_lt hFuel')
    simp only [walk, hSlot]
    by_cases hOver : (enterStep b x rec s).1 = true
    · have hStore : (stepEnded b (enterStep b x rec s).2).store.runs n path rec.next 255 :=
        PlanStore.runs_congr hRest fun k _ _ hk => (enterStep_over_slotAt hOver k).trans hk
      have hNext := ih hStore (Nat.lt_of_succ_lt_succ hFuel) (Nat.lt_of_succ_lt_succ hFuel')
      rw [stepEnded] at hNext
      simp only [hNext]
    · simp only [hOver, Bool.false_eq_true, if_false]

/-- From a slot of a path the path goes on to its end. -/
theorem PlanStore.runs_from {st : PlanStore} {n k last link : Nat} {path : List Nat} (h : st.runs n path k last) (hLink : link ∈ path) :
    ∃ rest : List Nat, st.runs n (link :: rest) link last ∧ rest.length < path.length := by
  induction path generalizing k with
  | nil => cases hLink
  | cons x path ih =>
    by_cases hx : link = x
    · exact ⟨path, by obtain ⟨rfl, hRest⟩ := h; exact ⟨rfl, hx ▸ hRest⟩, by simp⟩
    · obtain ⟨-, rec, -, hRest⟩ := h
      obtain ⟨rest, hRuns, hLength⟩ := ih hRest ((List.mem_cons.mp hLink).resolve_left hx)
      exact ⟨rest, hRuns, Nat.lt_succ_of_lt hLength⟩

/-- From a slot of an accepted chain there are at most 63 further steps to END. -/
theorem PlanStore.judgeChain_from {st : PlanStore} {n head link total : Nat} {visited : List Nat}
    (h : st.judgeChain n head = .ok (visited, total)) (hLink : link ∈ visited) :
    ∃ rest : List Nat, st.runs n (link :: rest) link 255 ∧ rest.length < 64 := by
  obtain ⟨path, hRuns, -, -, hLength, -, rfl, -⟩ := PlanStore.judgeChain_ok_iff.mp h
  obtain ⟨rest, hRest, hLess⟩ := PlanStore.runs_from hRuns (List.mem_reverse.mp hLink)
  exact ⟨rest, hRest, by omega⟩

/-! ## The boundary (R55) -/

theorem walk_succ (fuel : Nat) (b : BayId) (link : Nat) (s : State) : walk (fuel + 1) b link s =
    if (s.record b).endRequest then enterClosing b s
    else if (s.record b).holdRequest then enterHeld b .after s
    else if link = Config.endLink then enterClosing b s
    else match s.store.slotAt link with
      | none => enterClosing b s
      | some o =>
        if (enterStep b link o.record s).1 then walk fuel b o.record.next (stepEnded b (enterStep b link o.record s).2)
        else (enterStep b link o.record s).2 := by
  simp only [walk, stepEnded] <;> rfl

theorem boundary_eq (b : BayId) (link : Nat) (s : State) : boundary b link s = walk (255 + 1) b link s := rfl

theorem boundary_end (link : Nat) (h : (s.record b).endRequest = true) : boundary b link s = enterClosing b s := by
  rw [boundary_eq, walk_succ, if_pos h]

theorem boundary_hold (link : Nat) (hEnd : (s.record b).endRequest = false) (h : (s.record b).holdRequest = true) :
    boundary b link s = enterHeld b .after s := by
  rw [boundary_eq, walk_succ, if_neg (Bool.eq_false_iff.mp hEnd), if_pos h]

theorem boundary_last (hEnd : (s.record b).endRequest = false) (hHold : (s.record b).holdRequest = false) :
    boundary b 255 s = enterClosing b s := by
  rw [boundary_eq, walk_succ, if_neg (Bool.eq_false_iff.mp hEnd), if_neg (Bool.eq_false_iff.mp hHold)]
  exact if_pos rfl

/-- A link of an accepted chain enters its slot; a step that is over comes to the boundary of its own next link. -/
theorem boundary_link {n head link total : Nat} {visited : List Nat} {o : OwnedStep} (h : s.store.judgeChain n head = .ok (visited, total))
    (hLink : link ∈ visited) (hSlot : s.store.slotAt link = some o) (hEnd : (s.record b).endRequest = false)
    (hHold : (s.record b).holdRequest = false) : boundary b link s = if (enterStep b link o.record s).1 then
      boundary b o.record.next (stepEnded b (enterStep b link o.record s).2) else (enterStep b link o.record s).2 := by
  obtain ⟨rest, ⟨-, rec, hRec, hRest⟩, hLength⟩ := PlanStore.judgeChain_from h hLink
  obtain rfl : o = ⟨n, rec⟩ := Option.some.inj (hSlot.symm.trans hRec)
  have hNotEnd : link ≠ Config.endLink := fun e => absurd (PlanStore.slotAt_lt hSlot) (by rw [e]; decide)
  have hWalk : boundary b link s = if (enterStep b link rec s).1 then
      walk 255 b rec.next (stepEnded b (enterStep b link rec s).2) else (enterStep b link rec s).2 := by
    rw [boundary_eq, walk_succ, if_neg (Bool.eq_false_iff.mp hEnd), if_neg (Bool.eq_false_iff.mp hHold), if_neg hNotEnd, hSlot]
  rw [hWalk]
  split
  · next hOver =>
    have hNext : (stepEnded b (enterStep b link rec s).2).store.runs n rest rec.next 255 :=
      PlanStore.runs_congr hRest fun k _ _ hk => (enterStep_over_slotAt hOver k).trans hk
    exact walk_fuel hNext (by omega) (by omega)
  · rfl

/-! ## Skip tests (R57 to R59) -/

/-- The bay has come to a slot. -/
def slotEntered (b : BayId) (link : Nat) (s : State) : State := mapRecord b (fun r => { r with slot := some link, phase := .none }) s

theorem slotEntered_record (b : BayId) (link : Nat) (s : State) :
    (slotEntered b link s).record b = { s.record b with slot := some link, phase := .none } := mapRecord_recordOf_same ..

theorem enterStep_waits {link : Nat} {rec : StepRecord} (hWaits : skipWaits rec.skip = true)
    (hPending : (s.record b).pendingReductions ≠ 0) :
    enterStep b link rec s = (false, mapRecord b (fun r => { r with slot := some link, phase := .entryWait }) s) := by
  have hCond : (skipWaits rec.skip && decide (((mapRecord b (fun r => { r with slot := some link, phase := .none }) s).record
      b).pendingReductions ≠ 0)) = true := by simp [hWaits, hPending]
  unfold enterStep setPhase
  simp only [hCond, if_true, mapRecord_mapRecord]

/-- A slot whose skip test does not wait is run or skipped by its test. -/
theorem enterStep_goes {link : Nat} {rec : StepRecord} (h : skipWaits rec.skip = true → (s.record b).pendingReductions = 0) :
    enterStep b link rec s = if (skipTest b rec (slotEntered b link s)).1 then beginStep b rec (skipTest b rec (slotEntered b link s)).2
      else (true, (skipTest b rec (slotEntered b link s)).2) := by
  have hCond : ¬((skipWaits rec.skip && decide (((mapRecord b (fun r => { r with slot := some link, phase := .none }) s).record
      b).pendingReductions ≠ 0)) = true) := by
    simp only [mapRecord_recordOf_same, Bool.and_eq_true, decide_eq_true_iff]
    exact fun hw => hw.2 (h hw.1)
  unfold enterStep
  exact if_neg hCond

theorem skipTest_plain {rec : StepRecord} (h : rec.skip ≠ .audit) : skipTest b rec s = (skipRuns rec.skip (s.record b), s) := by
  unfold skipTest
  split
  · next hAudit => exact absurd hAudit h
  · rfl

theorem auditDecrement_zero (st : PlanStore) (c : Nat) : (st.auditDecrement c).1 = decide (st.commonAt c = 1) := by
  unfold PlanStore.auditDecrement
  simp only [sub_eq_zero]
  split
  · next h => simp [h]
  · next h => simp [h]

theorem skipTest_audit_zero {rec : StepRecord} {c : Nat} (h : rec.skip = .audit) (hc : rec.auditCell = some c)
    (hOne : s.store.commonAt c = 1) : skipTest b rec s =
      (true, mapRecord b (fun r => { r with audit := true }) { s with store := (s.store.auditDecrement c).2 }) := by
  simp only [skipTest, h, hc, Option.getD_some, auditDecrement_zero, hOne, decide_true, Bool.or_true]

theorem skipTest_audit_left {rec : StepRecord} {c : Nat} (h : rec.skip = .audit) (hc : rec.auditCell = some c)
    (hLeft : s.store.commonAt c ≠ 1) : skipTest b rec s = (false, { s with store := (s.store.auditDecrement c).2 }) := by
  simp only [skipTest, h, hc, Option.getD_some, auditDecrement_zero, hLeft, decide_false, Bool.or_false]
  exact congrArg (Prod.mk false) (mapRecord_eq_self rfl)

/-! ## The entry into CLOSING (R25, R67, R89) -/

theorem State.eq_of_banks {s t : State} (hCell : t.cell = s.cell) (hStore : t.store = s.store) (hReducer : t.reducer = s.reducer)
    (hManifold : t.manifold = s.manifold) (hReports : t.reports = s.reports) (hPending : t.pending = s.pending) :
    t = { s with bays := t.bays, ports := t.ports } := by
  rw [← hCell, ← hStore, ← hReducer, ← hManifold, ← hReports, ← hPending]

theorem beginClosing_entered (b : BayId) (s : State) (hOwner : (s.record b).owner = .sequencer) : ClosingEntered b s (beginClosing b s) := by
  let u := startWindDown b (setBayState b .closing (mapRecord b (fun r =>
    { r with phase := .none, holdRequest := false, holdPoint := none, latched := none, startTemperature := none }) s))
  obtain ⟨l, hRecord⟩ := beginClosing_record_same b s
  obtain ⟨hConfig, hDrive⟩ := beginClosing_blocks b s
  obtain ⟨hCell, hStore, hReducer, hReports, -, hPending⟩ := State.rest_eq_iff.mp (refreshLines_rest b u)
  have hBegin : beginClosing b s = refreshLines b u := rfl
  have hu : u.record b = { s.record b with
      phase := .none, holdRequest := false, holdPoint := none, latched := none, startTemperature := none, state := .closing } := by
    simp only [u, startWindDown, mapDrive_recordOf, setBayState_record_same, mapRecord_recordOf_same]
  have hBlocks : (u.bay b).config = (s.bay b).config ∧ (u.bay b).sensor = (s.bay b).sensor ∧ (u.bay b).noise = (s.bay b).noise ∧
      (u.bay b).leak = (s.bay b).leak := by
    simp only [u, startWindDown, mapDrive_bay_same, setBayState, raise_bay, mapRecord_bay_same]
    exact ⟨trivial, trivial, trivial, trivial⟩
  obtain ⟨huConfig, huSensor, huNoise, huLeak⟩ := hBlocks
  have hLines : ((beginClosing b s).record b).lines =
      sequencerLines (s.bay b).config.map .closing (s.bay b).leak.phase (s.record b).lines := by
    rw [hBegin, refreshLines_record, hu, huConfig, huLeak]
    exact if_pos hOwner
  have hNotice : Offered (.bayState b) u := Offered.of_raise (Raised.of_ports rfl)
  have hManifold : (beginClosing b s).manifold = s.manifold := (refreshLines_manifold b u).trans rfl
  have hShared : beginClosing b s = { s with bays := (beginClosing b s).bays, ports := (beginClosing b s).ports } := by
    rw [← hBegin] at hCell hStore hReducer hReports hPending
    exact State.eq_of_banks hCell hStore hReducer hManifold hReports hPending
  exact {
    record := by rw [hRecord]
    drive := hDrive
    rest := ⟨hConfig, by rw [hBegin, refreshLines_sensor, huSensor], by rw [hBegin, refreshLines_noise, huNoise],
      by rw [hBegin, refreshLines_leak, huLeak]⟩
    vent := by
      rw [hLines]
      cases h : (s.bay b).config.map.vent <;> simp [sequencerLines, h]
    sealHeads := fun hIdle => by
      rw [hLines]
      cases h : (s.bay b).config.map.sealHeads <;> simp [sequencerLines, h, hIdle]
    fill := by rw [hLines]; rfl
    notice := hNotice.raised (refreshLines_raised b u)
    shared := ⟨hShared, fun c hc => beginClosing_bay_other _ hc, (beginClosing_raised b s).portsRaised⟩ }

/-- CLOSING under the sequencer: a drive at rest with no reduction pending passes through it (R67, R68, R90). -/
theorem enterClosing_taken (b : BayId) (s : State) (hOwner : (s.record b).owner = .sequencer) :
    ((s.bay b).drive.x ≠ 0 ∨ 5 < ((s.bay b).drive.latest.elim 0 (·.speed)).natAbs → enterClosing b s = beginClosing b s) ∧
    ((s.bay b).drive.x = 0 → ((s.bay b).drive.latest.elim 0 (·.speed)).natAbs ≤ 5 →
      ((s.record b).pendingReductions ≠ 0 → enterClosing b s = windDownOver b (beginClosing b s)) ∧
      ((s.record b).pendingReductions = 0 → FinishedWith b (closingVerdict (worstOf (s.record b).results)) (s.record b).cause
        (s.record b).secondary (beginClosing b s) (enterClosing b s))) := by
  have hEntered := beginClosing_entered b s hOwner
  have hDrive := hEntered.drive
  have hWind : ((beginClosing b s).bay b).drive.windDown = .inProgress s.now := by rw [hDrive]
  have hState : ((beginClosing b s).record b).state = .closing := by rw [hEntered.record]
  have hPending : ((beginClosing b s).record b).pendingReductions = (s.record b).pendingReductions := by rw [hEntered.record]
  have hResults : ((beginClosing b s).record b).results = (s.record b).results := by rw [hEntered.record]
  have hCause : ((beginClosing b s).record b).cause = (s.record b).cause := by rw [hEntered.record]
  have hSecondary : ((beginClosing b s).record b).secondary = (s.record b).secondary := by rw [hEntered.record]
  rw [enterClosing_eq]
  refine ⟨fun hTurning => ?_, fun hx hSpeed => ?_⟩
  · exact examineEnding_turning (examineWindDown_turning (by rw [hDrive]; exact hTurning)) (by rw [hWind]; nofun)
  · have hStill : ¬Turning b (beginClosing b s) := by
      rintro ⟨-, hMoving⟩
      rw [hDrive] at hMoving
      exact hMoving.elim (absurd hx) (Nat.not_lt.mpr hSpeed)
    have hInProgress : ((beginClosing b s).bay b).drive.windDown ≠ .none := by rw [hWind]; nofun
    refine ⟨fun h => examineEnding_closing_pending hState (hPending ▸ h) hInProgress hStill, fun h => ?_⟩
    rw [examineEnding_closing hState (hPending.trans h) hInProgress hStill, hResults, ← hCause, ← hSecondary]
    have hFinished := finishBay_finishedWith b (closingVerdict (worstOf (s.record b).results)) (windDownOver b (beginClosing b s))
    simp only [windDownOver, mapDrive_recordOf] at hFinished
    exact FinishedWith.of_windDownOver hFinished

/-! ## The obligation -/

/-- What the boundary comes to when the step entered turns out `out`. -/
theorem boundary_out {n head link total : Nat} {visited : List Nat} {o : OwnedStep} {out : Bool × State}
    (h : s.store.judgeChain n head = .ok (visited, total)) (hLink : link ∈ visited) (hSlot : s.store.slotAt link = some o)
    (hEnd : (s.record b).endRequest = false) (hHold : (s.record b).holdRequest = false) (hOut : enterStep b link o.record s = out) :
    (out.1 = false → boundary b link s = out.2) ∧
    (out.1 = true → boundary b link s = boundary b o.record.next (stepEnded b out.2)) := by
  have hBoundary := boundary_link h hLink hSlot hEnd hHold
  rw [hOut] at hBoundary
  exact ⟨fun hFalse => hBoundary.trans (if_neg (Bool.eq_false_iff.mp hFalse)), fun hTrue => hBoundary.trans (if_pos hTrue)⟩

theorem skipRuns_iff {t : SkipTest} {r : BayRecord} : skipRuns t r = true ↔ match t with
    | .ifClean => r.verdict ≠ .pass
    | .unlessClean => r.verdict = .pass
    | .ifLastPass => ∀ x, r.results.getLast? = some x → x.verdict ≠ .pass
    | .run | .audit => True := by
  cases t with
  | ifLastPass => cases h : r.results.getLast? <;> simp [skipRuns, h]
  | ifClean => simp [skipRuns]
  | unlessClean => simp [skipRuns]
  | run => simp [skipRuns]
  | audit => simp [skipRuns]

theorem skipWaits_iff {t : SkipTest} : skipWaits t = true ↔ t = .ifClean ∨ t = .unlessClean ∨ t = .ifLastPass := by
  cases t <;> simp [skipWaits]

/-- Settles O48. -/
theorem boundaryFollowsRequestsThenChain : Obligations.BoundaryFollowsRequestsThenChain := by
  refine ⟨fun b link s => ⟨boundary_end link, boundary_hold link, boundary_last⟩, ?chain, enterHeld_eq, fun b s hOwner => ?closing,
    fun b n head link s visited total fuel hOk hLink hFuel => ?fuel⟩
  case chain =>
    intro b n head link s visited total o hOk hLink hSlot hEnd hHold r entered ended runs skipped reads clean
    have out : ∀ {x}, enterStep b link o.record s = x → _ := fun hx => boundary_out hOk hLink hSlot hEnd hHold hx
    have goes : (skipWaits o.record.skip = true → r.pendingReductions = 0) → enterStep b link o.record s = _ := enterStep_goes
    have runsOf : ∀ u, enterStep b link o.record s = beginStep b o.record u → runs u := fun u hu => out hu
    have skippedOf : ∀ u, enterStep b link o.record s = (true, u) → skipped u := fun u hu => (out hu).2 rfl
    have hSkipRuns : skipRuns o.record.skip ((slotEntered b link s).record b) = true ↔ clean := by
      have hIff := skipRuns_iff (t := o.record.skip) (r := (slotEntered b link s).record b)
      rw [slotEntered_record] at hIff ⊢
      exact hIff
    refine ⟨fun hReads hPending => ?waits, fun hReads hPending hClean => ?runs, fun hReads hPending hClean => ?skips,
      fun hRun => ?plain, fun c hAudit hc => ?audit⟩
    case waits => exact (out (enterStep_waits (skipWaits_iff.mpr hReads) hPending)).1 rfl
    case runs =>
      refine runsOf _ ((goes fun _ => hPending).trans ?_)
      have hNotAudit : o.record.skip ≠ .audit := fun e => by simp [reads, e] at hReads
      rw [skipTest_plain hNotAudit, if_pos (hSkipRuns.mpr hClean)] <;> rfl
    case skips =>
      refine skippedOf _ ((goes fun _ => hPending).trans ?_)
      have hNotAudit : o.record.skip ≠ .audit := fun e => by simp [reads, e] at hReads
      rw [skipTest_plain hNotAudit, if_neg (mt hSkipRuns.mp hClean)] <;> rfl
    case plain =>
      refine runsOf _ ((goes fun h => by simp [hRun, skipWaits] at h).trans ?_)
      rw [skipTest_plain (by simp [hRun]), if_pos (by simp [hRun, skipRuns])] <;> rfl
    case audit =>
      intro u
      have hOut := goes fun h => by simp [hAudit, skipWaits] at h
      refine ⟨fun hOne => runsOf _ (hOut.trans ?_), fun hLeft => skippedOf _ (hOut.trans ?_)⟩
      · rw [skipTest_audit_zero (s := slotEntered b link s) hAudit hc hOne, if_pos rfl] <;> rfl
      · rw [skipTest_audit_left (s := slotEntered b link s) hAudit hc hLeft, if_neg Bool.false_ne_true] <;> rfl
  case closing =>
    have hTaken := enterClosing_taken b s hOwner
    rw [closingVerdict_eq] at hTaken
    exact ⟨beginClosing b s, beginClosing_entered b s hOwner, hTaken⟩
  case fuel =>
    rcases hLink with hLink | rfl
    · obtain ⟨rest, hRuns, hLength⟩ := PlanStore.judgeChain_from hOk hLink
      exact walk_fuel hRuns (by simp only [List.length_cons]; omega) (by simp only [List.length_cons]; omega)
    · exact walk_fuel (path := []) (n := n) rfl (by simp only [List.length_nil]; omega) (by simp)

end Sys2Proof.Machine
end

section
/-! PROOF. Step entry: the references, the ranges, the limit pairs, and the start of each kind's work (O49). -/

namespace Sys2Proof.Machine

variable {b : BayId} {s t u : State}

/-! ## References (R49 to R51) -/

namespace PlanStore
variable {st : PlanStore} {code : Nat}

theorem resolve_variant_missing (h : ∀ v ∈ st.variants, v.code ≠ code) (i : Nat) : st.resolve code (.variant i) = none := by
  simp only [resolve, variantCell, variant_eq_none_iff.mpr h]

theorem resolve_variant {v : VariantEntry} (h : st.variant code = some v) (i : Fin 16) :
    st.resolve code (.variant i) = some v.cells[i] := by
  simp only [resolve, variantCell, h]
  exact Vector.getElem?_eq_getElem i.isLt

theorem resolveIndirect_variant {n i j : Nat} (hj : j ≤ 15) (h : st.commonAt i = 256 + j) :
    st.resolveIndirect code (n + 1) i = st.resolve code (.variant j) := by
  rw [resolveIndirect, h, if_pos (by omega), show ((256 : Int) + j - 256).toNat = j by omega] <;> rfl

theorem resolveIndirect_common {n i j : Nat} (hj : j ≤ 63) (h : st.commonAt i = 512 + j) :
    st.resolveIndirect code (n + 1) i = some (st.commonAt j) := by
  rw [resolveIndirect, h, if_neg (by omega), if_pos (by omega), show ((512 : Int) + j - 512).toNat = j by omega]

theorem resolveIndirect_indirect {n i j : Nat} (hj : j ≤ 63) (h : st.commonAt i = 768 + j) :
    st.resolveIndirect code (n + 1) i = st.resolveIndirect code n j := by
  rw [resolveIndirect, h, if_neg (by omega), if_neg (by omega), if_pos (by omega), show ((768 : Int) + j - 768).toNat = j by omega]

theorem resolveIndirect_fault {n i : Nat} (h : st.commonAt i < 256 ∨ 271 < st.commonAt i ∧ st.commonAt i < 512 ∨
    575 < st.commonAt i ∧ st.commonAt i < 768 ∨ 831 < st.commonAt i) : st.resolveIndirect code (n + 1) i = none := by
  rw [resolveIndirect, if_neg (by omega), if_neg (by omega), if_neg (by omega)]

theorem resolveList_eq_none_iff {rs : List Ref} : st.resolveList code rs = none ↔ ∃ r ∈ rs, st.resolve code r = none := by
  induction rs with
  | nil => simp [resolveList]
  | cons r rs ih =>
    rw [resolveList, List.exists_mem_cons_iff, ← ih]
    cases st.resolve code r <;> cases st.resolveList code rs <;> simp

theorem resolveList_eq_some {rs : List Ref} {vs : List Int} (h : st.resolveList code rs = some vs) :
    rs.map (st.resolve code) = vs.map some := by
  induction rs generalizing vs with
  | nil => cases h; rfl
  | cons r rs ih =>
    rw [resolveList] at h
    split at h
    · next v vs' hv hvs =>
      cases h
      rw [List.map_cons, List.map_cons, hv, ih hvs]
    · cases h

theorem refsUsed_le (k : StepKind) : refsUsed k ≤ 10 := by cases k <;> decide

theorem taken_refs_length (rec : StepRecord) : (rec.refs.toList.take (refsUsed rec.kind)).length = refsUsed rec.kind := by
  rw [List.length_take, Vector.length_toList]
  exact min_eq_left (refsUsed_le _)

theorem taken_refs_get (rec : StepRecord) (k : Fin 10) (hk : k.val < refsUsed rec.kind) :
    (rec.refs.toList.take (refsUsed rec.kind))[k.val]? = some rec.refs[k] := by
  rw [List.getElem?_take_of_lt hk, Vector.getElem?_toList]
  exact Vector.getElem?_eq_getElem k.isLt

/-- A step faults exactly when one of its references does (R48, R51). -/
theorem resolveStep_eq_none_iff (rec : StepRecord) : st.resolveStep code rec = none ↔
    ∃ k : Fin 10, k.val < refsUsed rec.kind ∧ st.resolve code rec.refs[k] = none := by
  rw [resolveStep, resolveList_eq_none_iff]
  constructor
  · rintro ⟨r, hr, hNone⟩
    obtain ⟨k, hk, hGet⟩ := List.mem_iff_getElem.mp hr
    rw [taken_refs_length] at hk
    have hTen : k < 10 := hk.trans_le (refsUsed_le _)
    have hRef := taken_refs_get rec ⟨k, hTen⟩ hk
    rw [List.getElem?_eq_getElem (by rwa [taken_refs_length]), hGet] at hRef
    exact ⟨⟨k, hTen⟩, hk, Option.some.inj hRef ▸ hNone⟩
  · rintro ⟨k, hk, hNone⟩
    exact ⟨rec.refs[k], List.mem_of_getElem? (taken_refs_get rec k hk), hNone⟩

/-- The values of a step's references in order (R48). -/
theorem resolveStep_eq_some {rec : StepRecord} {vs : List Int} (h : st.resolveStep code rec = some vs) :
    vs.length = refsUsed rec.kind ∧ ∀ k : Fin 10, k.val < refsUsed rec.kind → vs[k.val]? = st.resolve code rec.refs[k] := by
  have hMap := resolveList_eq_some h
  have hLength := congrArg List.length hMap
  rw [List.length_map, List.length_map, taken_refs_length] at hLength
  refine ⟨hLength.symm, fun k hk => ?_⟩
  have hGet := congrArg (·[k.val]?) hMap
  simp only [List.getElem?_map, taken_refs_get rec k hk, Option.map_some] at hGet
  have hLess : k.val < vs.length := hLength ▸ hk
  rw [List.getElem?_eq_getElem hLess, Option.map_some] at hGet
  rw [List.getElem?_eq_getElem hLess]
  exact (Option.some.inj hGet).symm

end PlanStore

/-! ## Ranges and limit pairs (R47, R52, R53) -/

theorem operandRanges_length (limit : Nat) (kind : StepKind) : (operandRanges limit kind).length = refsUsed kind := by
  cases kind <;> rfl

theorem clampOperands_length {ranges : List (Int × Int)} {vs : List Int} (h : ranges.length = vs.length) :
    (clampOperands ranges vs).length = vs.length := by
  rw [clampOperands, List.length_zipWith, h, min_self]

theorem clampOperands_get {ranges : List (Int × Int)} {vs : List Int} {k : Nat} {lo hi v : Int} (hr : ranges[k]? = some (lo, hi))
    (hv : vs[k]? = some v) : (clampOperands ranges vs)[k]? = some (if v < lo then lo else if hi < v then hi else v) := by
  rw [clampOperands, List.getElem?_zipWith, hr, hv]
  rfl

theorem pairOutOfOrder_lt {ops : Operands} {check : Check} {pass fail : Int} (h : pairOutOfOrder ops = some (check, pass, fail)) :
    fail < pass := by
  cases ops with
  | ramp o => cases h
  | dwell o =>
    simp only [pairOutOfOrder] at h
    split at h
    · next hp => cases h; exact hp
    · split at h
      · next hp => cases h; exact hp
      · cases h
  | listen o =>
    simp only [pairOutOfOrder] at h
    split at h
    · next hp => cases h; exact hp
    · split at h
      · next hp => cases h; exact hp
      · cases h
  | leak o =>
    simp only [pairOutOfOrder] at h
    split at h
    · next hp => cases h; exact hp
    · cases h

/-! ## The start of each kind's work (R81, R82, R85, R110 to R112, R136, R137) -/

/-- The drive has its target, ramp rate and torque limit (R81). -/
def rampSet (b : BayId) (o : RampOps) (s : State) : State :=
  mapDrive b (fun d => { d with target := o.target, rampRate := o.rate.toNat, torqueLimit := o.torque.toNat }) s

theorem startRamp_eq (b : BayId) (o : RampOps) (s : State) : startRamp b o s =
    if (s.bay b).drive.x ≠ o.target * 1000 then (false, mapRecord b (fun r => { r with phase := .ramping }) (rampSet b o s))
    else if ((s.bay b).drive.latest.elim 0 (·.speed) - o.target).natAbs ≤ o.tolerance then (true, rampSet b o s)
    else (false, mapRecord b (fun r => { r with phase := .tracking }) (rampSet b o s)) := by
  have hDrive : ((rampSet b o s).bay b).drive = { (s.bay b).drive with
      target := o.target, rampRate := o.rate.toNat, torqueLimit := o.torque.toNat } := by
    rw [rampSet, mapDrive_bay_same]
  have hTracked : ((rampSet b o s).bay b).drive.tracked o = true ↔ (s.bay b).drive.x = o.target * 1000 ∧
      (((s.bay b).drive.latest.elim 0 (·.speed) - o.target).natAbs : Int) ≤ o.tolerance := by
    rw [hDrive]
    simp [DriveLink.tracked, DriveLink.latestSpeed]
  have hx : ((rampSet b o s).bay b).drive.x = (s.bay b).drive.x := by rw [hDrive]
  have hStart : startRamp b o s = if ((rampSet b o s).bay b).drive.tracked o then (true, rampSet b o s)
    else if ((rampSet b o s).bay b).drive.x = o.target * 1000 then (false, setPhase b .tracking (rampSet b o s))
    else (false, setPhase b .ramping (rampSet b o s)) := rfl
  rw [hStart, hx]
  simp only [hTracked]
  by_cases h : (s.bay b).drive.x = o.target * 1000
  · simp only [h, true_and, ne_eq, not_true_eq_false, if_false, if_true]
    rfl
  · simp only [h, false_and, ne_eq, not_false_eq_true, if_false, if_true]
    rfl

theorem startDwell_eq (b : BayId) (o : DwellOps) (s : State) : startDwell b o s = (false, mapBay b (fun x =>
    { x with
      record := { x.record with
        phase := .dwelling
        startTemperature := if o.risePass = 0 ∧ o.riseFail = 0 then none else x.sensor.temperatureNow }
      drive := { x.drive with
        dwell := if o.torquePass = 0 ∧ o.torqueFail = 0 then x.drive.dwell else some ⟨0, 0, 0⟩ } }) s) := by
  have hTorque : o.torqueOn = true ↔ ¬(o.torquePass = 0 ∧ o.torqueFail = 0) := by simp [DwellOps.torqueOn, imp_iff_not_or]
  have hRise : o.riseOn = true ↔ ¬(o.risePass = 0 ∧ o.riseFail = 0) := by simp [DwellOps.riseOn, imp_iff_not_or]
  have hDrive : (if o.torqueOn = true then mapDrive b (fun d => { d with dwell := some ⟨0, 0, 0⟩ }) s else s) =
      mapDrive b (fun d => { d with
        dwell := if o.torquePass = 0 ∧ o.torqueFail = 0 then d.dwell else some ⟨0, 0, 0⟩ }) s := by
    by_cases h : o.torquePass = 0 ∧ o.torqueFail = 0
    · simp only [hTorque, h, not_true_eq_false, if_false, and_self, if_true]
      exact (mapDrive_eq_self rfl).symm
    · simp only [hTorque, h, not_false_eq_true, if_true, if_false]
  unfold startDwell setPhase
  simp only [hDrive, hRise, ite_not, mapDrive_sensor]
  rw [mapRecord_mapRecord]
  exact congrArg (Prod.mk false) ((mapBay_mapBay b _ _ s).trans (mapBay_congr b _ _ s rfl))

theorem NoiseUnit.find_eq_none {n : NoiseUnit} {st : BufState} (h : ∀ k, (n.get k).state ≠ st) : n.find st = none := by
  have h0 := h .a0
  have h1 := h .a1
  exact (if_neg h0).trans (if_neg h1)

theorem NoiseUnit.find_eq_some {n : NoiseUnit} {st : BufState} {k : BufId} (h : (n.get k).state = st)
    (hFirst : k = .a1 → (n.get .a0).state ≠ st) : n.find st = some k := by
  cases k with
  | a0 => exact if_pos h
  | a1 => exact (if_neg (hFirst rfl)).trans (if_pos h)

theorem startListen_waits {o : ListenOps} (h : ∀ k, (s.buf b k).state ≠ .free) :
    startListen b o s = (false, mapRecord b (fun r => { r with phase := .bufferWait }) s) := by
  simp only [startListen, NoiseUnit.find_eq_none h]
  rfl

theorem startListen_slow {o : ListenOps} {k : BufId} (hFree : (s.buf b k).state = .free)
    (hFirst : k = .a1 → (s.buf b .a0).state ≠ .free) (hSpeed : ((s.bay b).drive.latest.elim 0 (·.speed)).natAbs < 60)
    (hState : (s.record b).state = .running) : startListen b o s =
      (true, posted b [stepResult s b .listen .noise .invalid (some .tooSlow) ((s.bay b).drive.latest.elim 0 (·.speed)) 0 Notes.none] s) := by
  simp only [startListen, NoiseUnit.find_eq_some hFree hFirst]
  rw [← postResult_posted (by rw [hState]; rfl)]
  exact if_pos hSpeed

theorem startListen_takes {o : ListenOps} {k : BufId} (hFree : (s.buf b k).state = .free)
    (hFirst : k = .a1 → (s.buf b .a0).state ≠ .free) (hSpeed : 60 ≤ ((s.bay b).drive.latest.elim 0 (·.speed)).natAbs) :
    startListen b o s = (false, mapRecord b (fun r => { r with phase := .listening })
      (mapNoise b (fun n => { n.set k
        { state := .acquiring, lanes := Vector.replicate _ 0, revolutions := 0, slips := 0, saturated := false,
          acquisitionStart := some s.now, ops := some o, slot := (s.record b).slot, discard := false } with
        row := .hunting, staging := [] }) s)) := by
  simp only [startListen, NoiseUnit.find_eq_some hFree hFirst]
  exact if_neg (Nat.not_lt.mpr hSpeed)

theorem startLeak_conflict {o : LeakOps} (hState : (s.record b).state = .running)
    (h : (s.bay b).drive.target ≠ 0 ∨ 5 < ((s.bay b).drive.latest.elim 0 (·.speed)).natAbs) : startLeak b o s =
      (true, posted b [stepResult s b .leak .leak .invalid (some .planConflict) (s.bay b).drive.target
        ((s.bay b).drive.latest.elim 0 (·.speed)) Notes.none] s) := by
  have hCond : (s.bay b).drive.target ≠ 0 ∨ (s.bay b).drive.atRest = false :=
    h.imp id fun hSpeed => decide_eq_false (Nat.not_le.mpr hSpeed)
  rw [← postResult_posted (by rw [hState]; rfl)]
  exact if_pos hCond

section AtRest
variable (hTarget : (s.bay b).drive.target = 0) (hSpeed : ((s.bay b).drive.latest.elim 0 (·.speed)).natAbs ≤ 5)
include hTarget hSpeed

theorem startLeak_rest (o : LeakOps) : startLeak b o s =
    if (s.bay b).config.map.sealHeads = .held ∨ (s.bay b).config.map.vent = .held then
      (true, postResult b (stepResult s b .leak .leak .invalid (some .linesHeld) 0 0 Notes.none) s)
    else (false, enterAmbient b o s) := by
  have hRest : (s.bay b).drive.atRest = true := decide_eq_true hSpeed
  exact if_neg (by simp [hTarget, hRest])

theorem startLeak_held {o : LeakOps} (hState : (s.record b).state = .running)
    (h : (s.bay b).config.map.sealHeads = .held ∨ (s.bay b).config.map.vent = .held) : startLeak b o s =
      (true, posted b [stepResult s b .leak .leak .invalid (some .linesHeld) 0 0 Notes.none] s) := by
  rw [startLeak_rest hTarget hSpeed, if_pos h, postResult_posted (by rw [hState]; rfl)]

theorem startLeak_driven {o : LeakOps} (hSeal : (s.bay b).config.map.sealHeads = .driven) (hVent : (s.bay b).config.map.vent = .driven) :
    startLeak b o s = (false, enterAmbient b o s) := by
  rw [startLeak_rest hTarget hSpeed, if_neg (by rw [hSeal, hVent]; nofun)]

end AtRest

/-- The unit has taken its operands. -/
def operandsTaken (b : BayId) (o : LeakOps) (s : State) : State := mapLeak b (fun u => { u with ops := some o }) s

/-- The unit stands in AMBIENT, before it asks for a mean (R137). -/
def ambientBegun (b : BayId) (o : LeakOps) (s : State) : State := enterLeakPhase b .ambient (some s.now) (operandsTaken b o s)

theorem ambientBegun_entered (b : BayId) (o : LeakOps) (s : State) : LeakEntered b .ambient
    { ((operandsTaken b o s).bay b).leak with phase := .ambient, phaseStart := some s.now, startMeans := none }
    (operandsTaken b o s) (ambientBegun b o s) ∧ Unposted b (operandsTaken b o s) (ambientBegun b o s) :=
  ⟨enterLeakPhase_entered (ph := .ambient) nofun _, enterLeakPhase_unposted _⟩

theorem enterAmbient_eq (b : BayId) (o : LeakOps) (s : State) : enterAmbient b o s =
    match (s.bay b).sensor.pressureSince s.now s.now with
    | some pa => enterFillWait b (mapLeak b (fun u => { u with ambient := some pa }) (ambientBegun b o s))
    | none => ambientBegun b o s := by
  obtain ⟨hEntered, -⟩ := ambientBegun_entered b o s
  have hStart : ((ambientBegun b o s).bay b).leak.phaseStart = some s.now := by rw [hEntered.leak]
  have hAsk := askAmbient_eq hStart
  have hSensor : ((ambientBegun b o s).bay b).sensor = (s.bay b).sensor := hEntered.moved.sensor.trans (mapLeak_sensor ..)
  rw [hSensor, show (ambientBegun b o s).now = s.now from hEntered.moved.now] at hAsk
  exact hAsk

/-- AMBIENT that ends as it begins (R137, R138). -/
theorem AmbientEnded.after_ambient {pa : Int} {l : LeakUnit} (h : LeakEntered b .ambient l s t) (hUnposted : Unposted b s t)
    (hLeak : l = { (s.bay b).leak with phase := .ambient, phaseStart := some s.now, startMeans := none })
    (h' : AmbientEnded b pa t u) : AmbientEnded b pa s u where
  moved := h.moved.trans h'.moved
  unposted := hUnposted.trans h'.unposted
  lines hOwner hState := by
    obtain ⟨hState', hOwner', -⟩ := h.moved.kept
    exact (h.lines hOwner hState).after h.moved.config (h'.lines (hOwner'.trans hOwner) (hState'.trans hState))
  free hGranted := by
    obtain ⟨hLeak', hRest⟩ := h'.free ((congrArg ManifoldArbiter.granted h.manifold).trans hGranted)
    refine ⟨?_, hRest⟩
    rw [hLeak', h.leak, hLeak, h.moved.now]
  held c hGranted := by
    obtain ⟨hLeak', hPhase, hFill, hManifold⟩ := h'.held c ((congrArg ManifoldArbiter.granted h.manifold).trans hGranted)
    refine ⟨?_, hPhase, hFill.trans h.fill, by rw [hManifold, h.manifold]⟩
    rw [hLeak', h.leak, hLeak]

/-! ## Step entry (R47 to R53, R60) -/

theorem beginStep_fault {rec : StepRecord} (h : s.store.resolveStep (s.record b).variantCode rec = none) :
    beginStep b rec s = (false, takeFault b .reference s) := by
  simp only [beginStep, h]

/-- The step's clamped operands are known, and the bay adjusted when a clamp changed one (R52). -/
def operandsClamped (b : BayId) (clamped vs : List Int) (s : State) : State :=
  mapRecord b (fun r => { r with adjusted := r.adjusted || decide (clamped ≠ vs) }) s

theorem beginStep_resolved {rec : StepRecord} {vs : List Int} (h : s.store.resolveStep (s.record b).variantCode rec = some vs) :
    let clamped := clampOperands (operandRanges (s.bay b).config.speedLimit rec.kind) vs
    let u := operandsClamped b clamped vs s
    beginStep b rec s = match pairOutOfOrder (operandsOf rec.kind clamped) with
      | some (check, pass, fail) =>
        (true, postResult b (stepResult u b rec.kind check .invalid (some .limitOrder) pass fail Notes.none) u)
      | none => startWork b (operandsOf rec.kind clamped)
          (mapRecord b (fun r => { r with stepStart := some s.now, latched := some (operandsOf rec.kind clamped) }) u) := by
  have hBne : ∀ l m : List Int, (l != m) = decide (l ≠ m) := fun l m => Bool.eq_iff_iff.mpr (by simp)
  simp only [beginStep, h, hBne]
  rfl

theorem references_resolved (s : State) (code : Nat) : let st := s.store
    (∀ v, st.resolve code (.immediate v) = some v) ∧ (∀ i, st.resolve code (.common i) = some (st.commonAt i)) ∧
    (∀ i, (∀ v ∈ st.variants, v.code ≠ code) → st.resolve code (.variant i) = none) ∧
    (∀ (v : VariantEntry) (i : Fin 16), VariantsOk s → v ∈ st.variants → v.code = code →
      st.resolve code (.variant i) = some v.cells[i]) ∧
    (∀ i, st.resolve code (.indirect i) = st.resolveIndirect code 3 i ∧ st.resolveIndirect code 0 i = none) :=
  ⟨fun _ => rfl, fun _ => rfl, fun i h => PlanStore.resolve_variant_missing h i,
    fun _ i hOk hv hCode => PlanStore.resolve_variant (hCode ▸ hOk.variant_eq hv) i, fun _ => ⟨rfl, rfl⟩⟩

theorem refsUsed_eq (kind : StepKind) : refsUsed kind = match kind with | .ramp => 5 | .dwell => 5 | .listen => 10 | .leak => 9 := by
  cases kind <;> rfl

/-- Settles O49. -/
theorem stepEntryResolvesOperands : Obligations.StepEntryResolvesOperands := by
  refine ⟨fun s code => ?references, fun limit => ⟨rfl, rfl, rfl, rfl⟩, fun a b c d e f g h i j => ⟨rfl, rfl, rfl, rfl⟩, ?pairs,
    fun b rec s => ?entry, fun b s => ?starts⟩
  case references =>
    obtain ⟨hImmediate, hCommon, hMissing, hVariant, hIndirect⟩ := references_resolved s code
    refine ⟨hImmediate, hCommon, hMissing, hVariant, hIndirect, fun n i => ?_, fun rec => ?_⟩
    · exact ⟨fun _ => PlanStore.resolveIndirect_variant, fun _ => PlanStore.resolveIndirect_common,
        fun _ => PlanStore.resolveIndirect_indirect, PlanStore.resolveIndirect_fault⟩
    · simp only [← refsUsed_eq]
      exact ⟨PlanStore.resolveStep_eq_none_iff rec, fun vs => PlanStore.resolveStep_eq_some⟩
  case pairs =>
    refine ⟨fun _ => rfl, fun _ => rfl, fun _ => rfl, fun o => ⟨?_, fun h => if_pos h⟩⟩
    simp only [pairOutOfOrder, ite_eq_right_iff, reduceCtorEq, imp_false, not_lt]
  case entry =>
    refine ⟨fun h => ⟨beginStep_fault h, fun hReducer hSteps hDrives hState =>
      (AbortReady.of_ok hReducer hSteps hDrives (.inl hState)).taken _⟩, fun vs h => ?_⟩
    obtain ⟨hLength, -⟩ := PlanStore.resolveStep_eq_some h
    have hRanges : (operandRanges (s.bay b).config.speedLimit rec.kind).length = vs.length := by rw [operandRanges_length, hLength]
    have hBegin := beginStep_resolved h
    refine ⟨hLength.trans (refsUsed_eq _), ?_⟩
    intro clamped
    refine ⟨clampOperands_length hRanges, fun k lo hi v => clampOperands_get, ?_⟩
    intro u
    refine ⟨fun check pass fail hPair => ⟨pairOutOfOrder_lt hPair, ?_⟩, fun hPair => ?_⟩
    · simp only [show pairOutOfOrder (operandsOf rec.kind (clampOperands (operandRanges (s.bay b).config.speedLimit rec.kind) vs)) = _
        from hPair] at hBegin
      exact hBegin
    · simp only [show pairOutOfOrder (operandsOf rec.kind (clampOperands (operandRanges (s.bay b).config.speedLimit rec.kind) vs)) = _
        from hPair] at hBegin
      exact hBegin
  case starts =>
    intro d speed invalid
    refine ⟨fun o => startRamp_eq b o s, fun o => ⟨_, startDwell_eq b o s, rfl⟩,
      fun o => ⟨rfl, startListen_waits, fun k hFree hFirst => ⟨startListen_slow hFree hFirst, startListen_takes hFree hFirst⟩⟩,
      fun o hState => ⟨startLeak_conflict hState, fun hTarget hSpeed => ⟨startLeak_held hTarget hSpeed hState, ?_⟩⟩⟩
    intro hSeal hVent hOwner
    have hEnter := enterAmbient_eq b o s
    obtain ⟨hEntered, hUnposted⟩ := ambientBegun_entered b o s
    refine ⟨enterAmbient b o s, startLeak_driven hTarget hSpeed hSeal hVent, fun hNone => ?_, fun pa hMean hBusy => ?_⟩
    · rw [hEnter, hNone]
      have hTaken : LeakEntered b .ambient _ s (ambientBegun b o s) := .after_kept (mapLeak_kept fun u => { u with ops := some o }) hEntered
      exact ⟨hTaken.moved, (mapLeak_unposted _).trans hUnposted, hTaken.lines hOwner hState, hTaken.fill, hTaken.manifold,
        hTaken.phase, hTaken.leak⟩
    · rw [hEnter, hMean]
      refine .after_ambient hEntered hUnposted rfl (enterFillWait_ended pa fun hQueue hFree => hQueue ?_)
      have hManifold : (ambientBegun b o s).manifold = s.manifold := hEntered.manifold
      rw [hManifold] at hFree ⊢
      exact hBusy hFree

end Sys2Proof.Machine
end

section
/-! PROOF. What a walk and an examination of a wind-down leave of the drive, the sensor link and the owner of their bay, and of the step
phases of the other bays: the part of a millisecond between the generator step and the message (R54 to R60, R71, R79, R82, R90). -/

namespace Sys2Proof.Machine

variable {b : BayId} {s t u : State}

/-! ## Steady and at rest -/

/-- What no work of a step changes: x, message sequence, latest report and its age, the sensor link and the owner. -/
def Bay.tended (x : Bay) : Bay :=
  { config := BayConfig.reset
    record := { BayRecord.reset with owner := x.record.owner }
    drive := { DriveLink.reset with
      x := x.drive.x, sequence := x.drive.sequence, latest := x.drive.latest, reportAge := x.drive.reportAge }
    sensor := x.sensor
    noise := NoiseUnit.reset
    leak := LeakUnit.reset }

/-- The other bays' step phases move by a grant only. -/
def OthersGranted (b : BayId) (s t : State) : Prop :=
  ∀ c, c ≠ b → (t.record c).phase = (s.record c).phase ∨ (t.record c).phase = .fill

theorem OthersGranted.of_bays (h : ∀ c, c ≠ b → t.bay c = s.bay c) : OthersGranted b s t := fun c hc =>
  .inl (by rw [State.record, h c hc]; rfl)

theorem OthersGranted.trans (h : OthersGranted b s t) (h' : OthersGranted b t u) : OthersGranted b s u := fun c hc => by
  rcases h' c hc with e | e
  · rw [e]; exact h c hc
  · exact .inr e

/-- Bay `b` keeps what no work of a step changes. -/
structure Steady (b : BayId) (s t : State) : Prop where
  tended : (t.bay b).tended = (s.bay b).tended
  others : OthersGranted b s t

/-- Bay `b` has come into FINISHED (R71). -/
structure Rested (b : BayId) (s t : State) : Prop where
  drive : (t.bay b).drive.sequence = (s.bay b).drive.sequence ∧ (t.bay b).drive.latest = (s.bay b).drive.latest ∧
    (t.bay b).drive.reportAge = (s.bay b).drive.reportAge ∧ (t.bay b).drive.x = 0
  sensor : (t.bay b).sensor = { (s.bay b).sensor with lossWatch := (t.bay b).sensor.lossWatch }
  record : (t.record b).state = .finished ∧ (t.record b).owner = .line
  others : OthersGranted b s t

def Tended (b : BayId) (s t : State) : Prop := Steady b s t ∨ Rested b s t

theorem Steady.facts (h : Steady b s t) : (t.record b).owner = (s.record b).owner ∧ (t.bay b).drive.x = (s.bay b).drive.x ∧
    (t.bay b).drive.sequence = (s.bay b).drive.sequence ∧ (t.bay b).drive.latest = (s.bay b).drive.latest ∧
    (t.bay b).drive.reportAge = (s.bay b).drive.reportAge ∧ (t.bay b).sensor = (s.bay b).sensor := by
  have hTended := h.tended
  unfold Bay.tended at hTended
  simp only [Bay.mk.injEq, BayRecord.mk.injEq, DriveLink.mk.injEq, true_and, and_true] at hTended
  obtain ⟨hOwner, ⟨hx, hSequence, hLatest, hAge⟩, hSensor⟩ := hTended
  exact ⟨hOwner, hx, hSequence, hLatest, hAge, hSensor⟩

theorem Steady.refl (b : BayId) (s : State) : Steady b s s := ⟨rfl, .of_bays fun _ _ => rfl⟩

theorem Steady.trans (h : Steady b s t) (h' : Steady b t u) : Steady b s u := ⟨h'.tended.trans h.tended, h.others.trans h'.others⟩

theorem Steady.of_bay (h : (t.bay b).tended = (s.bay b).tended) (hOthers : ∀ c, c ≠ b → t.bay c = s.bay c) : Steady b s t :=
  ⟨h, .of_bays hOthers⟩

theorem Rested.after (h : Steady b s t) (h' : Rested b t u) : Rested b s u := by
  obtain ⟨-, -, hSequence, hLatest, hAge, hSensor⟩ := h.facts
  obtain ⟨⟨hSequence', hLatest', hAge', hx⟩, hSensor', hRecord, hOthers⟩ := h'
  exact ⟨⟨hSequence'.trans hSequence, hLatest'.trans hLatest, hAge'.trans hAge, hx⟩, by rw [← hSensor]; exact hSensor', hRecord,
    h.others.trans hOthers⟩

theorem Tended.after (h : Steady b s t) (h' : Tended b t u) : Tended b s u := h'.imp h.trans (.after h)

theorem Bay.tended_congr {x y : Bay} (hOwner : y.record.owner = x.record.owner) (hDrive : y.drive.x = x.drive.x ∧
    y.drive.sequence = x.drive.sequence ∧ y.drive.latest = x.drive.latest ∧ y.drive.reportAge = x.drive.reportAge)
    (hSensor : y.sensor = x.sensor) : y.tended = x.tended := by
  obtain ⟨hx, hSequence, hLatest, hAge⟩ := hDrive
  simp only [Bay.tended, hOwner, hx, hSequence, hLatest, hAge, hSensor]

/-! ## The operations on one bay -/

theorem mapRecord_steady (f : BayRecord → BayRecord) (h : (f (s.record b)).owner = (s.record b).owner) : Steady b s (mapRecord b f s) := by
  refine .of_bay ?_ fun c hc => mapRecord_bay_other _ _ hc
  rw [mapRecord_bay_same]
  exact Bay.tended_congr h ⟨rfl, rfl, rfl, rfl⟩ rfl

theorem mapDrive_steady (f : DriveLink → DriveLink) (h : (f (s.bay b).drive).x = (s.bay b).drive.x ∧
    (f (s.bay b).drive).sequence = (s.bay b).drive.sequence ∧ (f (s.bay b).drive).latest = (s.bay b).drive.latest ∧
    (f (s.bay b).drive).reportAge = (s.bay b).drive.reportAge) : Steady b s (mapDrive b f s) := by
  refine .of_bay ?_ fun c hc => mapDrive_bay_other _ _ hc
  rw [mapDrive_bay_same]
  exact Bay.tended_congr rfl h rfl

theorem mapNoise_steady (f : NoiseUnit → NoiseUnit) : Steady b s (mapNoise b f s) := by
  refine .of_bay ?_ fun c hc => mapNoise_bay_other _ _ hc
  rw [mapNoise_bay_same]; rfl

theorem mapLeak_steady (f : LeakUnit → LeakUnit) : Steady b s (mapLeak b f s) := by
  refine .of_bay ?_ fun c hc => mapLeak_bay_other _ _ hc
  rw [mapLeak_bay_same]; rfl

theorem refreshLines_steady : Steady b s (refreshLines b s) := by
  refine .of_bay ?_ fun c hc => refreshLines_bay_other _ hc
  rw [refreshLines_bay_same]; rfl

theorem setPhase_steady (ph : StepPhase) : Steady b s (setPhase b ph s) := mapRecord_steady _ rfl

theorem postResult_steady (r : Result) : Steady b s (postResult b r s) := by
  obtain ⟨rs, v, e, hBay⟩ := postResult_bay_same b r s
  exact .of_bay (by rw [hBay]; rfl) fun c hc => postResult_bay_other _ _ hc

theorem enterLeakPhase_steady (ph : LeakPhase) (start : Option Time) : Steady b s (enterLeakPhase b ph start s) := by
  refine .of_bay ?_ fun c hc => enterLeakPhase_bay_other _ _ _ hc
  rw [enterLeakPhase_bay_same]; rfl

/-- A grant, to whichever bay. -/
theorem grantHead_steady (b : BayId) (s : State) : Steady b s (grantHead s) := by
  have hBay : ∀ c, ((grantHead s).bay c).tended = (s.bay c).tended ∧
      (((grantHead s).record c).phase = (s.record c).phase ∨ ((grantHead s).record c).phase = .fill) := fun c => by
    by_cases h : nextHolder s = some c
    · have hc := grantHead_bay_same h
      exact ⟨by rw [hc]; rfl, .inr (by rw [State.record, hc])⟩
    · have hc := grantHead_bay_other h
      exact ⟨by rw [hc], .inl (by rw [State.record, hc]; rfl)⟩
  exact ⟨(hBay b).1, fun c _ => (hBay c).2⟩

theorem manifold_steady (m : ManifoldArbiter) : Steady b s { s with manifold := m } := .of_bay rfl fun _ _ => rfl

theorem freeManifold_steady : Steady b s (freeManifold b s) := by
  refine .of_bay ?_ fun c hc => ?_
  · rw [freeManifold_bay, if_pos rfl]; rfl
  · rw [freeManifold_bay, if_neg hc]

theorem withdrawManifold_steady : Steady b s (withdrawManifold b s) := by
  unfold withdrawManifold
  by_cases h : s.manifold.granted = some b
  · rw [releaseManifold_holder (by exact h)]
    have hFreed : Steady b s (freeManifold b { s with manifold := { s.manifold with queue := s.manifold.queue.filter (· ≠ b) } }) :=
      (manifold_steady _).trans freeManifold_steady
    exact hFreed.trans (grantHead_steady b _)
  · rw [releaseManifold_other (by exact h)]
    exact .of_bay rfl fun _ _ => rfl

theorem endLeak_steady : Steady b s (endLeak b s) := (mapLeak_steady _).trans withdrawManifold_steady

theorem cancelReductions_steady : Steady b s (cancelReductions b s) := by
  obtain ⟨n, hRecord⟩ := cancelReductions_record b s
  obtain ⟨-, hDrive, hSensor, -⟩ := cancelReductions_blocks b s
  have hOwner : ((cancelReductions b s).record b).owner = (s.record b).owner := by rw [hRecord]
  refine .of_bay (Bay.tended_congr hOwner ?_ hSensor) fun c hc => cancelReductions_bay_other _ hc
  rw [hDrive]
  exact ⟨rfl, rfl, rfl, rfl⟩

theorem setBayState_steady (st : BayState) : Steady b s (setBayState b st s) := by
  refine .of_bay ?_ fun c hc => setBayState_bay_other _ _ hc
  rw [setBayState, raise_bay, mapRecord_bay_same]; rfl

/-! ## Ends of a bay's test -/

theorem finishBay_rested (v : FinalVerdict) : Rested b s (finishBay b v s) := by
  obtain ⟨-, hDrive, hSensor, -⟩ := finishBay_blocks b v s
  have hRecord := finishBay_record_same b v s
  refine ⟨?_, by rw [hSensor], by rw [hRecord]; exact ⟨rfl, rfl⟩, .of_bays fun c hc => finishBay_bay_other _ _ hc⟩
  rw [hDrive]
  exact ⟨rfl, rfl, rfl, rfl⟩

theorem examineWindDown_tended (d : DriveLink) : d.examineWindDown.x = d.x ∧ d.examineWindDown.sequence = d.sequence ∧
    d.examineWindDown.latest = d.latest ∧ d.examineWindDown.reportAge = d.reportAge := by
  unfold DriveLink.examineWindDown
  split
  · split <;> exact ⟨rfl, rfl, rfl, rfl⟩
  · exact ⟨rfl, rfl, rfl, rfl⟩

theorem settleEnding_tended : Tended b s (settleEnding b s) := by
  unfold settleEnding
  split
  · split
    · exact .inr (finishBay_rested _)
    · split
      · exact .inr (finishBay_rested _)
      · exact .inl (.refl b s)
    · exact .inl (.refl b s)
  · exact .inl (.refl b s)

theorem examineEnding_tended : Tended b s (examineEnding b s) :=
  .after (mapDrive_steady _ (examineWindDown_tended _)) settleEnding_tended

/-- A bay in FINISHED stays there. -/
theorem Rested.examineEnding (h : Rested b s t) : Rested b s (examineEnding b t) := by
  obtain ⟨⟨hSequence, hLatest, hAge, hx⟩, hSensor, ⟨hState, hOwner⟩, hOthers⟩ := h
  have hSettled : Machine.examineEnding b t = mapDrive b DriveLink.examineWindDown t := by
    have hFinished : ((mapDrive b DriveLink.examineWindDown t).record b).state = .finished := by rw [mapDrive_recordOf, hState]
    unfold Machine.examineEnding settleEnding
    simp only [hFinished, ite_self]
  have hSteady : Steady b t (mapDrive b DriveLink.examineWindDown t) := mapDrive_steady _ (examineWindDown_tended _)
  obtain ⟨-, hx', hSequence', hLatest', hAge', hSensor'⟩ := hSteady.facts
  rw [hSettled]
  exact ⟨⟨hSequence'.trans hSequence, hLatest'.trans hLatest, hAge'.trans hAge, hx'.trans hx⟩, by rw [hSensor']; exact hSensor,
    by rw [mapDrive_recordOf]; exact ⟨hState, hOwner⟩, hOthers.trans hSteady.others⟩

theorem beginClosing_steady : Steady b s (beginClosing b s) := by
  have hRecorded : Steady b s (mapRecord b (fun r =>
      { r with phase := .none, holdRequest := false, holdPoint := none, latched := none, startTemperature := none }) s) :=
    mapRecord_steady _ rfl
  have hWound : Steady b s (startWindDown b (setBayState b .closing (mapRecord b (fun r =>
      { r with phase := .none, holdRequest := false, holdPoint := none, latched := none, startTemperature := none }) s))) :=
    (hRecorded.trans (setBayState_steady _)).trans (mapDrive_steady _ ⟨rfl, rfl, rfl, rfl⟩)
  exact hWound.trans refreshLines_steady

theorem enterClosing_tended : Tended b s (enterClosing b s) := .after beginClosing_steady examineEnding_tended

theorem enterHeld_steady (point : HoldPoint) : Steady b s (enterHeld b point s) := by
  rw [enterHeld]
  exact (mapRecord_steady _ rfl).trans (setBayState_steady _)

theorem abortDrive_tended (fromClosing : Prop) [Decidable fromClosing] (ramp : Nat) (now : Time) (d : DriveLink) :
    (abortDrive fromClosing ramp now d).x = d.x ∧ (abortDrive fromClosing ramp now d).sequence = d.sequence ∧
    (abortDrive fromClosing ramp now d).latest = d.latest ∧ (abortDrive fromClosing ramp now d).reportAge = d.reportAge := by
  unfold abortDrive; split <;> exact ⟨rfl, rfl, rfl, rfl⟩

theorem stopAcquisition_steady : Steady b s (stopAcquisition b s) := mapNoise_steady _

theorem beginAborting_steady (cause : Cause) : Steady b s (beginAborting b cause s) := by
  have hRecorded : Steady b s (abortRecorded b cause s) :=
    .of_bay (by rw [abortRecorded_bay]; rfl) fun c hc => abortRecorded_bay_other _ _ hc
  have hEnded : Steady b s (abortWorkEnded b cause s) :=
    ((hRecorded.trans cancelReductions_steady).trans endLeak_steady).trans stopAcquisition_steady
  rw [beginAborting_eq]
  exact (hEnded.trans (mapDrive_steady _ (abortDrive_tended ..))).trans refreshLines_steady

theorem takeFault_tended (cause : Cause) : Tended b s (takeFault b cause s) := by
  have hAborts : Tended b s (enterAborting b cause s) := .after (beginAborting_steady cause) examineEnding_tended
  unfold takeFault
  split
  · exact hAborts
  · exact hAborts
  · exact hAborts
  · exact .inl (mapRecord_steady _ rfl)
  · exact .inl (.refl b s)

/-! ## The walk (R54 to R60) -/

theorem enterAmbient_steady (o : LeakOps) : Steady b s (enterAmbient b o s) := by
  have hBegun : Steady b s (ambientBegun b o s) := (mapLeak_steady _).trans (enterLeakPhase_steady ..)
  rw [enterAmbient_eq]
  split
  · next pa _ =>
    rw [enterFillWait_requested]
    have hAsked : Steady b (ambientBegun b o s) (asked b pa (ambientBegun b o s)) := (mapLeak_steady _).trans (enterLeakPhase_steady ..)
    have hRequested : Steady b (asked b pa (ambientBegun b o s)) (requested b pa (ambientBegun b o s)) := manifold_steady _
    exact ((hBegun.trans hAsked).trans hRequested).trans (grantHead_steady b _)
  · exact hBegun

theorem startWork_steady (ops : Operands) : Steady b s (startWork b ops s).2 := by
  cases ops with
  | ramp o =>
    have hSet : Steady b s (rampSet b o s) := mapDrive_steady _ ⟨rfl, rfl, rfl, rfl⟩
    have hPhase : ∀ ph, Steady b s (mapRecord b (fun r => { r with phase := ph }) (rampSet b o s)) := fun _ =>
      hSet.trans (mapRecord_steady _ rfl)
    rw [startWork, startRamp_eq]
    split
    · exact hPhase _
    · split
      · exact hSet
      · exact hPhase _
  | dwell o =>
    rw [startWork, startDwell_eq]
    refine .of_bay ?_ fun c hc => mapBay_bay_other _ _ hc
    rw [mapBay_bay_same]; rfl
  | listen o =>
    simp only [startWork, startListen]
    split
    · exact setPhase_steady _
    · split
      · exact postResult_steady _
      · exact (mapNoise_steady _).trans (setPhase_steady _)
  | leak o =>
    simp only [startWork, startLeak]
    split
    · exact postResult_steady _
    · split
      · exact postResult_steady _
      · exact enterAmbient_steady o

/-- What an entry into a step does to its bay: one that is over at once has changed nothing of it. -/
def Begun (b : BayId) (s : State) (out : Bool × State) : Prop := (out.1 = true → Steady b s out.2) ∧ Tended b s out.2

theorem Begun.of_steady {out : Bool × State} (h : Steady b s out.2) : Begun b s out := ⟨fun _ => h, .inl h⟩

theorem Begun.after {out : Bool × State} (h : Steady b s t) (h' : Begun b t out) : Begun b s out :=
  ⟨fun hOver => h.trans (h'.1 hOver), .after h h'.2⟩

theorem beginStep_begun (rec : StepRecord) : Begun b s (beginStep b rec s) := by
  cases hResolved : s.store.resolveStep (s.record b).variantCode rec with
  | none =>
    rw [beginStep_fault hResolved]
    exact ⟨nofun, takeFault_tended _⟩
  | some vs =>
    have hBegin := beginStep_resolved hResolved
    have hClamped : ∀ clamped : List Int, Steady b s (operandsClamped b clamped vs s) := fun _ => mapRecord_steady _ rfl
    rw [hBegin]
    split
    · exact .of_steady ((hClamped _).trans (postResult_steady _))
    · exact .of_steady (((hClamped _).trans (mapRecord_steady _ rfl)).trans (startWork_steady _))

theorem skipTest_steady (rec : StepRecord) : Steady b s (skipTest b rec s).2 := by
  unfold skipTest
  split
  · have hAudit : ∀ (st : PlanStore) (zero : Bool),
        Steady b s (mapRecord b (fun r => { r with audit := r.audit || zero }) { s with store := st }) := fun st zero =>
      Steady.trans (t := { s with store := st }) (.of_bay rfl fun _ _ => rfl) (mapRecord_steady _ rfl)
    exact hAudit _ _
  · exact .refl b s

theorem enterStep_begun (link : Nat) (rec : StepRecord) : Begun b s (enterStep b link rec s) := by
  have hSlot : Steady b s (slotEntered b link s) := mapRecord_steady _ rfl
  by_cases hWaits : skipWaits rec.skip = true ∧ (s.record b).pendingReductions ≠ 0
  · rw [enterStep_waits hWaits.1 hWaits.2]
    have hWaiting : Steady b s (mapRecord b (fun r => { r with slot := some link, phase := .entryWait }) s) := mapRecord_steady _ rfl
    exact .of_steady hWaiting
  · rw [enterStep_goes fun h => not_not.mp fun hp => hWaits ⟨h, hp⟩]
    have hTest := hSlot.trans (skipTest_steady rec)
    split
    · exact (beginStep_begun rec).after hTest
    · exact .of_steady hTest

theorem walk_tended (fuel link : Nat) (s : State) : Tended b s (walk fuel b link s) := by
  induction fuel generalizing link s with
  | zero => exact enterClosing_tended
  | succ n ih =>
    rw [walk_succ]
    split
    · exact enterClosing_tended
    split
    · exact .inl (enterHeld_steady _)
    split
    · exact enterClosing_tended
    split
    · exact enterClosing_tended
    · next o _ =>
      obtain ⟨hOver, hTended⟩ := enterStep_begun (b := b) (s := s) link o.record
      split
      · next h => exact .after ((hOver h).trans (mapRecord_steady _ rfl)) (ih _ _)
      · exact hTended

theorem examineRamp_tended : Tended b s (examineRamp b s) := by
  simp only [examineRamp]
  split
  · split
    · split
      · exact .after (mapRecord_steady _ rfl) (walk_tended ..)
      · split
        · exact .inl (setPhase_steady _)
        · exact .inl (.refl b s)
    · exact .inl (.refl b s)
  · exact .inl (.refl b s)

end Sys2Proof.Machine
end

section
/-! PROOF. A millisecond: the generator step with what it tells, the message, and the counts and timers of the other blocks (O23). -/

namespace Sys2Proof.Machine

variable {b : BayId} {s t u : State}

/-! ## The generator and the message (R73, R74, R76, R79) -/

theorem generatorMove_approaches (x target : Int) (rate : Nat) :
    (generatorMove x target rate - x).natAbs = min rate (target * 1000 - x).natAbs ∧
    (target * 1000 - generatorMove x target rate).natAbs + (generatorMove x target rate - x).natAbs = (target * 1000 - x).natAbs := by
  unfold generatorMove
  dsimp only
  split <;> omega

theorem messaged_eq (d : DriveLink) : d.settleMessage.sendMessage.ageReport = d.messaged := by
  have hIsSome : (d.awaited.isSome && d.enable) = true ↔ d.awaited ≠ none ∧ d.enable = true := by
    rw [Bool.and_eq_true, Option.isSome_iff_ne_none]
  unfold DriveLink.settleMessage DriveLink.messaged
  simp only [hIsSome]
  split <;> rfl

/-- The generator step of bay `b`. -/
def generated (b : BayId) (s : State) : State := mapDrive b DriveLink.generatorStep s

/-- The message of bay `b`. -/
def messageSent (b : BayId) (s : State) : State := mapDrive b DriveLink.messaged s

theorem driveTick_eq (b : BayId) (s : State) :
    driveTick b s = messageSent b (examineManual b (examineEnding b (examineRamp b (generated b s)))) := by
  rw [messageSent, ← funext messaged_eq]
  rfl

theorem generated_record (b c : BayId) (s : State) : (generated b s).record c = s.record c := mapDrive_recordOf ..

theorem generated_drive (b : BayId) (s : State) : ((generated b s).bay b).drive =
    { (s.bay b).drive with x := generatorMove (s.bay b).drive.x (s.bay b).drive.target (s.bay b).drive.rampRate } := by
  rw [generated, mapDrive_bay_same]; rfl

theorem examineManual_idle (h : (s.record b).owner ≠ .cell) : examineManual b s = s := if_neg h

theorem Tended.owner (h : Tended b s t) (hOwner : (s.record b).owner ≠ .cell) : (t.record b).owner ≠ .cell := by
  rcases h with h | h
  · rw [h.facts.1]; exact hOwner
  · rw [h.record.2]; nofun

/-- With no manual operation the millisecond of a drive is what its examination leaves, with the message. -/
theorem driveTick_of_examined (hOwner : (s.record b).owner ≠ .cell) (hTended : Tended b (generated b s) t)
    (h : examineEnding b (examineRamp b (generated b s)) = t) : driveTick b s = messageSent b t := by
  rw [driveTick_eq, h, examineManual_idle (hTended.owner (by rwa [generated_record]))]

/-! ## RAMP steps (R82) -/

theorem tracked_generated (b : BayId) (o : RampOps) (s : State) : ((generated b s).bay b).drive.tracked o = true ↔
    generatorMove (s.bay b).drive.x (s.bay b).drive.target (s.bay b).drive.rampRate = o.target * 1000 ∧
      (((s.bay b).drive.latest.elim 0 (·.speed) - o.target).natAbs : Int) ≤ o.tolerance := by
  rw [generated_drive]
  simp [DriveLink.tracked, DriveLink.latestSpeed]

theorem examineRamp_generated {o : RampOps} (hPhase : (s.record b).phase = .ramping ∨ (s.record b).phase = .tracking)
    (hLatched : (s.record b).latched = some (.ramp o)) : examineRamp b (generated b s) =
    if ((generated b s).bay b).drive.tracked o then endStep b (generated b s)
    else if ((generated b s).bay b).drive.x = o.target * 1000 then setPhase b .tracking (generated b s) else generated b s :=
  examineRamp_working (by rwa [generated_record]) (by rwa [generated_record])

section Ramp
variable {o : RampOps} (hOwner : (s.record b).owner = .sequencer)
  (hPhase : (s.record b).phase = .ramping ∨ (s.record b).phase = .tracking) (hLatched : (s.record b).latched = some (.ramp o))
include hOwner hPhase hLatched

theorem driveTick_tracked (hx : generatorMove (s.bay b).drive.x (s.bay b).drive.target (s.bay b).drive.rampRate = o.target * 1000)
    (hSpeed : (((s.bay b).drive.latest.elim 0 (·.speed) - o.target).natAbs : Int) ≤ o.tolerance) :
    driveTick b s = messageSent b (examineEnding b (endStep b (generated b s))) := by
  have hRamp := examineRamp_generated hPhase hLatched
  rw [if_pos ((tracked_generated b o s).mpr ⟨hx, hSpeed⟩)] at hRamp
  have hEnded : Tended b (generated b s) (endStep b (generated b s)) := hRamp ▸ examineRamp_tended
  refine driveTick_of_examined (by rw [hOwner]; nofun) ?_ (congrArg _ hRamp)
  rcases hEnded with h | h
  · exact .after h examineEnding_tended
  · exact .inr h.examineEnding

variable (hWind : (s.bay b).drive.windDown = .none)
include hWind

theorem driveTick_tracking (hx : generatorMove (s.bay b).drive.x (s.bay b).drive.target (s.bay b).drive.rampRate = o.target * 1000)
    (hSpeed : o.tolerance < ((s.bay b).drive.latest.elim 0 (·.speed) - o.target).natAbs) :
    driveTick b s = messageSent b (setPhase b .tracking (generated b s)) := by
  have hRamp := examineRamp_generated hPhase hLatched
  rw [if_neg (fun h => absurd ((tracked_generated b o s).mp h).2 (not_le.mpr hSpeed)), if_pos (by
    rw [generated_drive]; exact hx)] at hRamp
  refine driveTick_of_examined (by rw [hOwner]; nofun) (.inl (setPhase_steady _)) ?_
  rw [hRamp, examineEnding_idle]
  rw [setPhase, mapRecord_drive, generated_drive]
  exact hWind

theorem driveTick_ramping (hx : generatorMove (s.bay b).drive.x (s.bay b).drive.target (s.bay b).drive.rampRate ≠ o.target * 1000) :
    driveTick b s = messageSent b (generated b s) := by
  have hRamp := examineRamp_generated hPhase hLatched
  rw [if_neg (fun h => hx ((tracked_generated b o s).mp h).1), if_neg (by rw [generated_drive]; exact hx)] at hRamp
  refine driveTick_of_examined (by rw [hOwner]; nofun) (.inl (.refl b _)) ?_
  rw [hRamp, examineEnding_idle]
  rw [generated_drive]
  exact hWind

end Ramp

/-! ## Wind-downs (R67, R68, R70, R90) -/

theorem generated_still (hx : generatorMove (s.bay b).drive.x (s.bay b).drive.target (s.bay b).drive.rampRate = 0)
    (hSpeed : ((s.bay b).drive.latest.elim 0 (·.speed)).natAbs ≤ 5) : ¬Turning b (generated b s) := by
  rintro ⟨-, hMoving⟩
  rw [generated_drive] at hMoving
  exact hMoving.elim (absurd hx) (Nat.not_lt.mpr hSpeed)

theorem generated_winding {t0 : Time} (hWind : (s.bay b).drive.windDown = .inProgress t0) :
    ((generated b s).bay b).drive.windDown ≠ .none := by
  rw [generated_drive]
  exact fun e => WindDown.noConfusion (hWind.symm.trans e)

theorem generated_finished (b : BayId) (s : State) (v : FinalVerdict) : FinishedWith b v (s.record b).cause (s.record b).secondary
    (generated b s) (finishBay b v (windDownOver b (generated b s))) := by
  have hFinished := finishBay_finishedWith b v (windDownOver b (generated b s))
  simp only [windDownOver, mapDrive_recordOf, generated_record] at hFinished
  exact FinishedWith.of_windDownOver hFinished

section WindDown
variable {t0 : Time} (hOwner : (s.record b).owner = .sequencer) (hPhase : (s.record b).phase = .none)
  (hWind : (s.bay b).drive.windDown = .inProgress t0)
include hOwner hPhase hWind

theorem driveTick_winding (h : examineEnding b (generated b s) = t) : driveTick b s = messageSent b t := by
  have hIdle : examineRamp b (generated b s) = generated b s :=
    examineRamp_idle (by rw [generated_record, hPhase]; nofun) (by rw [generated_record, hPhase]; nofun)
  refine driveTick_of_examined (by rw [hOwner]; nofun) ?_ (by rw [hIdle, h])
  rw [← h]
  exact examineEnding_tended

theorem driveTick_turning (h : generatorMove (s.bay b).drive.x (s.bay b).drive.target (s.bay b).drive.rampRate ≠ 0 ∨
    5 < ((s.bay b).drive.latest.elim 0 (·.speed)).natAbs) : driveTick b s = messageSent b (generated b s) := by
  refine driveTick_winding hOwner hPhase hWind (examineEnding_turning (examineWindDown_turning ?_) ?_)
  · rw [generated_drive]; exact h
  · rw [generated_drive, show WindDown.over = _ from rfl]
    exact fun e => WindDown.noConfusion (hWind.symm.trans e)

variable (hx : generatorMove (s.bay b).drive.x (s.bay b).drive.target (s.bay b).drive.rampRate = 0)
  (hSpeed : ((s.bay b).drive.latest.elim 0 (·.speed)).natAbs ≤ 5)
include hx hSpeed

theorem driveTick_aborting (hState : (s.record b).state = .aborting) : ∃ t, driveTick b s = messageSent b t ∧
    FinishedWith b (abortVerdict (s.record b).cause (s.record b).secondary) (s.record b).cause (s.record b).secondary
      (generated b s) t := by
  have hEnding := examineEnding_aborting (by rwa [generated_record]) (generated_winding hWind)
    (generated_still hx hSpeed)
  rw [generated_record] at hEnding
  exact ⟨_, driveTick_winding hOwner hPhase hWind hEnding, generated_finished ..⟩

theorem driveTick_closing (hState : (s.record b).state = .closing) (hPending : (s.record b).pendingReductions = 0) :
    ∃ t, driveTick b s = messageSent b t ∧ FinishedWith b (closingVerdict (worstOf (s.record b).results)) (s.record b).cause
      (s.record b).secondary (generated b s) t := by
  have hEnding := examineEnding_closing (by rwa [generated_record]) (by rwa [generated_record])
    (generated_winding hWind) (generated_still hx hSpeed)
  rw [generated_record] at hEnding
  exact ⟨_, driveTick_winding hOwner hPhase hWind hEnding, generated_finished ..⟩

theorem driveTick_closing_pending (hState : (s.record b).state = .closing) (hPending : (s.record b).pendingReductions ≠ 0) :
    driveTick b s = messageSent b (windDownOver b (generated b s)) :=
  driveTick_winding hOwner hPhase hWind (examineEnding_closing_pending (by rwa [generated_record]) (by rwa [generated_record])
    (generated_winding hWind) (generated_still hx hSpeed))

end WindDown

end Sys2Proof.Machine
end

section
/-! PROOF. A millisecond over all bays, in every order (O23). -/

namespace Sys2Proof.Machine

variable {b : BayId} {s t u : State}

/-! ## One bay's own millisecond -/

theorem manualEnable_tended (d : DriveLink) : d.manualEnable.x = d.x ∧ d.manualEnable.sequence = d.sequence ∧
    d.manualEnable.latest = d.latest ∧ d.manualEnable.reportAge = d.reportAge := by
  unfold DriveLink.manualEnable DriveLink.setEnable
  split <;> exact ⟨rfl, rfl, rfl, rfl⟩

theorem examineManual_steady : Steady b s (examineManual b s) := by
  unfold examineManual
  split
  · exact mapDrive_steady _ (manualEnable_tended _)
  · exact .refl b s

/-- Between the generator step and the message the bay is tended. -/
theorem driveTick_examined (b : BayId) (s : State) : ∃ t, Tended b (generated b s) t ∧ driveTick b s = messageSent b t := by
  refine ⟨_, ?_, driveTick_eq b s⟩
  have hEnding : Tended b (generated b s) (examineEnding b (examineRamp b (generated b s))) := by
    rcases examineRamp_tended (b := b) (s := generated b s) with h | h
    · exact .after h examineEnding_tended
    · exact .inr h.examineEnding
  rcases hEnding with h | h
  · exact .inl (h.trans examineManual_steady)
  · rw [examineManual_idle (by rw [h.record.2]; nofun)]
    exact .inr h

/-- A drive before and after its millisecond (R73, R74, R79, R107). -/
structure DriveAdvanced (finished : Prop) (d d' : DriveLink) : Prop where
  sent : d'.sent = some ⟨d.sequence, d'.enable, d'.x.tdiv 1000, d'.torqueLimit,
    messageCheck d.sequence d'.enable (d'.x.tdiv 1000) d'.torqueLimit⟩
  awaited : d'.awaited = some d.sequence
  sequence : d'.sequence = d.sequence + 1
  reportAge : d'.reportAge = min 65535 (d.reportAge + 1)
  latest : d'.latest = d.latest
  moved : d'.x = generatorMove d.x d.target d.rampRate ∨ finished ∧ d'.x = 0

theorem messaged_advanced {finished : Prop} {d e : DriveLink} (h : e.sequence = d.sequence ∧ e.latest = d.latest ∧
    e.reportAge = d.reportAge) (hx : e.x = generatorMove d.x d.target d.rampRate ∨ finished ∧ e.x = 0) :
    DriveAdvanced finished d e.messaged := by
  obtain ⟨hSequence, hLatest, hAge⟩ := h
  exact ⟨by rw [← hSequence]; rfl, congrArg some hSequence, congrArg (· + 1) hSequence, by rw [← hAge]; rfl, hLatest, hx⟩

theorem driveTick_advanced (b : BayId) (s : State) : DriveAdvanced (((driveTick b s).record b).state = .finished) (s.bay b).drive
      ((driveTick b s).bay b).drive ∧
    ((driveTick b s).bay b).sensor = { (s.bay b).sensor with lossWatch := ((driveTick b s).bay b).sensor.lossWatch } ∧
    (((driveTick b s).record b).state ≠ .finished → ((driveTick b s).bay b).sensor.lossWatch = (s.bay b).sensor.lossWatch) ∧
    OthersGranted b s (driveTick b s) := by
  obtain ⟨t, hTended, hTick⟩ := driveTick_examined b s
  have hGenerated := generated_drive b s
  have hSensor : ((generated b s).bay b).sensor = (s.bay b).sensor := mapDrive_sensor ..
  have hBefore : OthersGranted b s (generated b s) := .of_bays fun c hc => mapDrive_bay_other _ _ hc
  have hAfter : OthersGranted b t (messageSent b t) := .of_bays fun c hc => mapDrive_bay_other _ _ hc
  rw [hTick, messageSent, mapDrive_bay_same, mapDrive_recordOf]
  rcases hTended with h | h
  · obtain ⟨-, hx, hSequence, hLatest, hAge, hSensor'⟩ := h.facts
    rw [hGenerated] at hx hSequence hLatest hAge
    refine ⟨messaged_advanced ⟨hSequence, hLatest, hAge⟩ (.inl hx), ?_, fun _ => ?_, (hBefore.trans h.others).trans hAfter⟩
    · rw [hSensor', hSensor]
    · rw [hSensor', hSensor]
  · obtain ⟨⟨hSequence, hLatest, hAge, hx⟩, hSensor', ⟨hState, -⟩, hOthers⟩ := h
    rw [hGenerated] at hSequence hLatest hAge
    refine ⟨messaged_advanced ⟨hSequence, hLatest, hAge⟩ (.inr ⟨hState, hx⟩), ?_, fun hNot => absurd hState hNot,
      (hBefore.trans hOthers).trans hAfter⟩
    rw [hSensor] at hSensor'
    exact hSensor'

/-! ## A bay with no RAMP step and no wind-down (R75, R76) -/

def Quiet (b : BayId) (s : State) : Prop :=
  (s.record b).phase ≠ .ramping ∧ (s.record b).phase ≠ .tracking ∧ (s.bay b).drive.windDown = .none

/-- The drive of a quiet bay after its millisecond. -/
def quietTick (o : Owner) (d : DriveLink) : DriveLink :=
  (if o = .cell then d.generatorStep.manualEnable else d.generatorStep).messaged

theorem driveTick_quiet (h : Quiet b s) : driveTick b s = mapDrive b (quietTick (s.record b).owner) s := by
  obtain ⟨hRamping, hTracking, hWind⟩ := h
  have hRamp : examineRamp b (generated b s) = generated b s :=
    examineRamp_idle (by rwa [generated_record]) (by rwa [generated_record])
  have hEnding : examineEnding b (generated b s) = generated b s := examineEnding_idle (by rw [generated_drive]; exact hWind)
  rw [driveTick_eq, hRamp, hEnding, messageSent]
  by_cases hOwner : (s.record b).owner = .cell
  · have hManual : examineManual b (generated b s) = mapDrive b DriveLink.manualEnable (generated b s) :=
      if_pos (by rwa [generated_record])
    rw [hManual, generated, mapDrive_mapDrive, mapDrive_mapDrive]
    refine mapDrive_congr ?_
    rw [quietTick, if_pos hOwner]
  · rw [examineManual_idle (by rwa [generated_record]), generated, mapDrive_mapDrive]
    refine mapDrive_congr ?_
    rw [quietTick, if_neg hOwner]

theorem quietTick_windDown (o : Owner) (d : DriveLink) : (quietTick o d).windDown = d.windDown := by
  unfold quietTick
  split
  · unfold DriveLink.manualEnable DriveLink.setEnable
    split <;> rfl
  · rfl

theorem quietTick_idle {o : Owner} (h : o ≠ .cell) (d : DriveLink) : quietTick o d =
    { d with
      x := generatorMove d.x d.target d.rampRate, sent := (quietTick o d).sent, awaited := (quietTick o d).awaited,
      sequence := (quietTick o d).sequence, reportAge := (quietTick o d).reportAge,
      missed := if d.awaited ≠ none ∧ d.enable = true then min 20 (d.missed + 1) else d.missed } := by
  rw [quietTick, if_neg h]
  rfl

theorem quietTick_manual (d : DriveLink) : ((quietTick .cell d).enable = true ↔ d.jogTarget ≠ 0 ∨ (quietTick .cell d).x ≠ 0) ∧
    quietTick .cell d =
    { d with
      x := generatorMove d.x d.target d.rampRate, sent := (quietTick .cell d).sent, awaited := (quietTick .cell d).awaited,
      sequence := (quietTick .cell d).sequence, reportAge := (quietTick .cell d).reportAge, enable := (quietTick .cell d).enable,
      lostGiven := (quietTick .cell d).enable && d.lostGiven,
      missed := if (quietTick .cell d).enable = false then 0 else if d.awaited ≠ none then min 20 (d.missed + 1) else d.missed } := by
  rw [quietTick, if_pos rfl]
  by_cases h : d.generatorStep.jogTarget ≠ 0 ∨ d.generatorStep.x ≠ 0
  · rw [DriveLink.manualEnable_moving h]
    refine ⟨iff_of_true rfl h, ?_⟩
    simp only [DriveLink.messaged, DriveLink.generatorStep, and_true, Bool.true_eq_false, if_false, Bool.true_and]
  · obtain ⟨hJog, hx⟩ := not_or.mp h
    rw [DriveLink.manualEnable_rest (not_not.mp hJog) (not_not.mp hx)]
    refine ⟨iff_of_false nofun h, ?_⟩
    simp only [DriveLink.messaged, DriveLink.generatorStep, Bool.false_eq_true, and_false, if_false, if_true, Bool.false_and]

/-! ## The order of the bays (R79; log 3) -/

theorem eraseDups_nodup (l : List BayId) : l.eraseDups.Nodup := by
  induction hn : l.length using Nat.strong_induction_on generalizing l with
  | _ n ih =>
    cases l with
    | nil => rw [List.eraseDups_nil]; exact .nil
    | cons a as =>
      have hLess : (as.filter fun c => !c == a).length < n := by
        rw [← hn, List.length_cons]
        exact Nat.lt_succ_of_le (List.length_filter_le ..)
      rw [List.eraseDups_cons]
      refine List.nodup_cons.mpr ⟨fun h => ?_, ih _ hLess _ rfl⟩
      simp at h

theorem mem_allBays (b : BayId) : b ∈ allBays := by cases b <;> decide

/-- Each bay has its millisecond once. -/
theorem tickOrder_split (order : List BayId) (b : BayId) :
    ∃ before after : List BayId, tickOrder order = before ++ b :: after ∧ b ∉ before ∧ b ∉ after := by
  have hMem : b ∈ tickOrder order := List.mem_eraseDups.mpr (List.mem_append_right _ (mem_allBays b))
  obtain ⟨before, after, hSplit⟩ := List.append_of_mem hMem
  have hNodup : (before ++ b :: after).Nodup := hSplit ▸ eraseDups_nodup _
  obtain ⟨-, hAfter, hDisjoint⟩ := List.nodup_append.mp hNodup
  exact ⟨before, after, hSplit, fun h => hDisjoint b h b List.mem_cons_self rfl, (List.nodup_cons.mp hAfter).1⟩

/-- What the milliseconds of other bays leave of a bay. -/
structure Untended (b : BayId) (s t : State) : Prop where
  drive : (t.bay b).drive = (s.bay b).drive
  sensor : (t.bay b).sensor = (s.bay b).sensor
  state : (t.record b).state = (s.record b).state
  owner : (t.record b).owner = (s.record b).owner
  phase : (t.record b).phase = (s.record b).phase ∨ (t.record b).phase = .fill

theorem Untended.trans (h : Untended b s t) (h' : Untended b t u) : Untended b s u where
  drive := h'.drive.trans h.drive
  sensor := h'.sensor.trans h.sensor
  state := h'.state.trans h.state
  owner := h'.owner.trans h.owner
  phase := by
    rcases h'.phase with e | e
    · rw [e]; exact h.phase
    · exact .inr e

theorem driveTick_untended {c : BayId} (hc : b ≠ c) (s : State) : Untended b s (driveTick c s) := by
  obtain ⟨-, -, -, hOthers⟩ := driveTick_advanced c s
  have hSeen := (driveTick_moves (g := False) (d := False) (b := c) s False.elim False.elim).seen hc
  obtain ⟨-, hRecord, hDrive, hSensor, -⟩ := Bay.seen_other hSeen
  have hState : ((driveTick c s).record b).ungranted.state = (s.record b).ungranted.state := congrArg BayRecord.state hRecord
  have hOwner : ((driveTick c s).record b).ungranted.owner = (s.record b).ungranted.owner := congrArg BayRecord.owner hRecord
  exact ⟨hDrive, hSensor, hState, hOwner, hOthers b hc⟩

theorem driveTicks_untended {bs : List BayId} (h : b ∉ bs) (s : State) : Untended b s (driveTicks bs s) := by
  unfold driveTicks
  induction bs generalizing s with
  | nil => exact ⟨rfl, rfl, rfl, rfl, .inl rfl⟩
  | cons c bs ih =>
    exact (driveTick_untended (List.ne_of_not_mem_cons h) s).trans (ih (List.not_mem_of_not_mem_cons h) _)

theorem Untended.quiet (h : Untended b s t) (hQuiet : Quiet b s) : Quiet b t := by
  obtain ⟨hRamping, hTracking, hWind⟩ := hQuiet
  refine ⟨?_, ?_, by rw [h.drive]; exact hWind⟩
  · rcases h.phase with e | e
    · rwa [e]
    · rw [e]; nofun
  · rcases h.phase with e | e
    · rwa [e]
    · rw [e]; nofun

/-- Of a bay, the milliseconds of all bays come to its own. -/
theorem driveTicks_own (order : List BayId) (b : BayId) (s : State) : ∃ u v, Untended b s u ∧ v = driveTick b u ∧
    Untended b v (driveTicks (tickOrder order) s) := by
  obtain ⟨before, after, hSplit, hBefore, hAfter⟩ := tickOrder_split order b
  refine ⟨driveTicks before s, _, driveTicks_untended hBefore s, rfl, ?_⟩
  have hTicks : driveTicks (before ++ b :: after) s = driveTicks after (driveTick b (driveTicks before s)) := by
    unfold driveTicks
    rw [List.foldl_append, List.foldl_cons]
  rw [hSplit, hTicks]
  exact driveTicks_untended hAfter _

/-! ## All bays quiet -/

theorem driveTicks_quiet (bs : List BayId) (h : ∀ b, Quiet b s) : (driveTicks bs s).rest = s.rest ∧
    (driveTicks bs s).manifold = s.manifold ∧
    ∀ b, (driveTicks bs s).bay b = { s.bay b with drive := ((driveTicks bs s).bay b).drive } := by
  unfold driveTicks
  induction bs generalizing s with
  | nil => exact ⟨rfl, rfl, fun _ => rfl⟩
  | cons c bs ih =>
    rw [List.foldl_cons, driveTick_quiet (h c)]
    have hBay : ∀ b, (mapDrive c (quietTick (s.record c).owner) s).bay b =
        { s.bay b with drive := ((mapDrive c (quietTick (s.record c).owner) s).bay b).drive } := fun b => by
      by_cases hb : b = c
      · rw [hb, mapDrive_bay_same]
      · rw [mapDrive_bay_other _ _ hb]
    have hQuiet : ∀ b, Quiet b (mapDrive c (quietTick (s.record c).owner) s) := fun b => by
      obtain ⟨hRamping, hTracking, hWind⟩ := h b
      refine ⟨by rwa [mapDrive_recordOf], by rwa [mapDrive_recordOf], ?_⟩
      by_cases hb : b = c
      · subst hb
        rw [mapDrive_bay_same]
        exact (quietTick_windDown _ _).trans hWind
      · rwa [mapDrive_bay_other _ _ hb]
    obtain ⟨hRest, hManifold, hBays⟩ := ih hQuiet
    exact ⟨hRest.trans (mapDrive_rest ..), hManifold, fun b => by rw [hBays b, hBay b]⟩

/-! ## The counts and timers of the other blocks (R3, R100, R105, R177, R178) -/

theorem sensorTick_bay (s : State) (b : BayId) : (sensorTick s).bay b = { s.bay b with sensor := (s.bay b).sensor.tick } := by
  cases b <;> rfl

theorem sensorTick_shared (s : State) : (sensorTick s).rest = s.rest ∧ (sensorTick s).manifold = s.manifold := ⟨rfl, rfl⟩

theorem Port.tick_fields (p : Port) : p.tick = { p with
    quietTimer := p.quietTimer - 1, ntf := decide (p.notices ≠ [] ∧ p.quietTimer ≤ 1) } := by
  have hNtf : (!p.notices.isEmpty && p.quietTimer - 1 == 0) = decide (p.notices ≠ [] ∧ p.quietTimer ≤ 1) := by
    rw [Bool.eq_iff_iff]
    simp [List.isEmpty_iff]
    omega
  unfold Port.tick Port.refreshNtf
  rw [hNtf]

theorem SensorLink.tick_fields (l : SensorLink) : l.tick =
    { l with
      pressure := if min 65535 (l.pressureSilence + 1) = 65535 then [] else l.pressure
      temperature := if min 65535 (l.temperatureSilence + 1) = 65535 then [] else l.temperature
      pressureSilence := min 65535 (l.pressureSilence + 1), temperatureSilence := min 65535 (l.temperatureSilence + 1)
      vibrationSilence := min 65535 (l.vibrationSilence + 1)
      lossWatch := l.lossWatch.map fun v =>
        { v with pressureTimer := min 100 (v.pressureTimer + 1), temperatureTimer := min 1000 (v.temperatureTimer + 1) } } := by
  simp only [SensorLink.tick, SensorLink.purge, SensorLink.count]
  by_cases hp : min 65535 (l.pressureSilence + 1) = 65535
  · by_cases ht : min 65535 (l.temperatureSilence + 1) = 65535
    · simp only [hp, ht, if_true]; rfl
    · simp only [hp, ht, if_true, if_false]; rfl
  · by_cases ht : min 65535 (l.temperatureSilence + 1) = 65535
    · simp only [hp, ht, if_true, if_false]; rfl
    · simp only [hp, ht, if_false]; rfl

end Sys2Proof.Machine
end

section
/-! PROOF. The millisecond of the cell (O23). -/

namespace Sys2Proof.Machine

variable {b : BayId} {s t u : State}

theorem driveTicks_shared (bs : List BayId) (s : State) : (driveTicks bs s).cell.time = s.cell.time ∧
    ∀ p, ((driveTicks bs s).port p).unnoticed = (s.port p).unnoticed := by
  unfold driveTicks
  induction bs generalizing s with
  | nil => exact ⟨rfl, fun _ => rfl⟩
  | cons c bs ih =>
    have hMoves : Moves c False False s (driveTick c s) := driveTick_moves s False.elim False.elim
    have hTime : (driveTick c s).cell.time = s.cell.time :=
      hMoves.keep (P := fun u => u.cell.time = s.cell.time) (fun _ _ hm hu => hm.time.trans hu) rfl
    obtain ⟨hTime', hPorts'⟩ := ih (driveTick c s)
    exact ⟨hTime'.trans hTime, fun p => (hPorts' p).trans (hMoves.unnoticed p)⟩

/-- The drives of all bays after a millisecond, before the counts and timers. -/
def drivesTicked (order : List BayId) (s : State) : State := driveTicks (tickOrder order) (advanceTime s)

theorem portTick_shared (s : State) : (portTick s).store = s.store ∧ (portTick s).reports = s.reports ∧
    (portTick s).reducer = s.reducer ∧ (portTick s).manifold = s.manifold ∧ (portTick s).cell = s.cell := ⟨rfl, rfl, rfl, rfl, rfl⟩

/-- The counts and timers of a millisecond leave the shared blocks but for the ports. -/
theorem timers_shared (s : State) : (portTick (sensorTick s)).store = s.store ∧ (portTick (sensorTick s)).reports = s.reports ∧
    (portTick (sensorTick s)).reducer = s.reducer ∧ (portTick (sensorTick s)).manifold = s.manifold ∧
    (portTick (sensorTick s)).cell = s.cell := by
  obtain ⟨hRest, hManifold⟩ := sensorTick_shared s
  obtain ⟨hCell, hStore, hReducer, hReports, -, -⟩ := State.rest_eq_iff.mp hRest
  obtain ⟨hStore', hReports', hReducer', hManifold', hCell'⟩ := portTick_shared (sensorTick s)
  exact ⟨hStore'.trans hStore, hReports'.trans hReports, hReducer'.trans hReducer, hManifold'.trans hManifold, hCell'.trans hCell⟩

theorem portTick_bay (s : State) (b : BayId) : (portTick s).bay b = s.bay b := rfl

theorem sensorTick_port (s : State) (p : PortId) : (sensorTick s).port p = s.port p := rfl

theorem tick_drivesTicked (order : List BayId) (s : State) : tick order s = portTick (sensorTick (drivesTicked order s)) :=
  tick_eq order s

theorem tick_bay (order : List BayId) (s : State) (b : BayId) : (tick order s).bay b =
    { (drivesTicked order s).bay b with sensor := ((drivesTicked order s).bay b).sensor.tick } := by
  rw [tick_drivesTicked, portTick_bay, sensorTick_bay]

theorem tick_port (order : List BayId) (s : State) (p : PortId) : (tick order s).port p = ((drivesTicked order s).port p).tick := by
  rw [tick_drivesTicked, portTick_port, sensorTick_port]

theorem tick_quietTimer (order : List BayId) (s : State) (p : PortId) :
    ((tick order s).port p).quietTimer = (s.port p).quietTimer - 1 ∧
    ((tick order s).port p).ntf = decide (((tick order s).port p).notices ≠ [] ∧ ((tick order s).port p).quietTimer = 0) := by
  obtain ⟨-, hPorts⟩ := driveTicks_shared (tickOrder order) (advanceTime s)
  have hTimer : ((drivesTicked order s).port p).quietTimer = (s.port p).quietTimer := by
    have hKept := congrArg Port.quietTimer (Port.unnoticed_eq_iff.mp (hPorts p))
    exact hKept
  rw [tick_port, Port.tick_fields]
  refine ⟨congrArg (· - 1) hTimer, decide_eq_decide.mpr (and_congr_right fun _ => ?_)⟩
  show ((drivesTicked order s).port p).quietTimer ≤ 1 ↔ ((drivesTicked order s).port p).quietTimer - 1 = 0
  omega

/-- With every bay quiet a millisecond moves drives, sensor links, cell time, quiet timers and notice lines only. -/
theorem tick_quiet (order : List BayId) (h : ∀ b, Quiet b s) :
    (tick order s).store = s.store ∧ (tick order s).reports = s.reports ∧ (tick order s).reducer = s.reducer ∧
    (tick order s).manifold = s.manifold ∧ (tick order s).cell = { s.cell with time := s.cell.time + 1 } ∧
    (∀ p, (tick order s).port p = { s.port p with
      quietTimer := (s.port p).quietTimer - 1, ntf := decide ((s.port p).notices ≠ [] ∧ (s.port p).quietTimer ≤ 1) }) ∧
    ∀ b, (tick order s).bay b = { s.bay b with drive := ((tick order s).bay b).drive, sensor := ((tick order s).bay b).sensor } := by
  obtain ⟨hRest, hManifold, hBays⟩ := driveTicks_quiet (s := advanceTime s) (tickOrder order) h
  obtain ⟨hCell, hStore, hReducer, hReports, hPorts, -⟩ := State.rest_eq_iff.mp hRest
  have hPort : ∀ p, (drivesTicked order s).port p = s.port p := fun p => by
    rw [State.port, State.port, show (drivesTicked order s).ports = s.ports from hPorts]
  have hBay : ∀ b, (drivesTicked order s).bay b = { s.bay b with drive := ((drivesTicked order s).bay b).drive } := hBays
  obtain ⟨hStore', hReports', hReducer', hManifold', hCell'⟩ := timers_shared (drivesTicked order s)
  rw [← tick_drivesTicked] at hStore' hReports' hReducer' hManifold' hCell'
  refine ⟨hStore'.trans hStore, hReports'.trans hReports, hReducer'.trans hReducer, hManifold'.trans hManifold,
    hCell'.trans hCell, fun p => ?_, fun b => ?_⟩
  · rw [tick_port, Port.tick_fields, hPort]
  · rw [tick_bay, hBay]

/-- A bay's drive, sensor link and state after the milliseconds of all bays. -/
theorem drivesTicked_own (order : List BayId) (s : State) (b : BayId) :
    DriveAdvanced (((drivesTicked order s).record b).state = .finished) (s.bay b).drive ((drivesTicked order s).bay b).drive ∧
    ((drivesTicked order s).bay b).sensor =
      { (s.bay b).sensor with lossWatch := ((drivesTicked order s).bay b).sensor.lossWatch } ∧
    (((drivesTicked order s).record b).state ≠ .finished →
      ((drivesTicked order s).bay b).sensor.lossWatch = (s.bay b).sensor.lossWatch) ∧
    (Quiet b s → ((drivesTicked order s).bay b).drive = quietTick (s.record b).owner (s.bay b).drive) := by
  obtain ⟨u, v, hBefore, rfl, hAfter⟩ := driveTicks_own order b (advanceTime s)
  obtain ⟨hDrive, hSensor, hWatch, -⟩ := driveTick_advanced b u
  have hState : ((drivesTicked order s).record b).state = ((driveTick b u).record b).state := hAfter.state
  have hDrive' : ((drivesTicked order s).bay b).drive = ((driveTick b u).bay b).drive := hAfter.drive
  have hSensor' : ((drivesTicked order s).bay b).sensor = ((driveTick b u).bay b).sensor := hAfter.sensor
  have hDriveBefore : (u.bay b).drive = (s.bay b).drive := hBefore.drive
  have hSensorBefore : (u.bay b).sensor = (s.bay b).sensor := hBefore.sensor
  have hOwnerBefore : (u.record b).owner = (s.record b).owner := hBefore.owner
  rw [hState, hDrive', hSensor', ← hDriveBefore, ← hSensorBefore, ← hOwnerBefore]
  refine ⟨hDrive, hSensor, hWatch, fun hQuiet => ?_⟩
  rw [driveTick_quiet (hBefore.quiet hQuiet), mapDrive_bay_same]

/-- Settles O23. -/
theorem millisecondTickAdvancesEverything : Obligations.MillisecondTickAdvancesEverything := by
  refine ⟨generatorMove_approaches, fun b s hOwner => ?drive, fun order s => ⟨rfl, tick order s, rfl, ?now, tick_quietTimer order s,
    tick_quiet order, fun b => ?own⟩⟩
  case drive =>
    intro d x speed moved sent
    refine ⟨fun o hPhase hLatched hWind => ⟨driveTick_tracked hOwner hPhase hLatched, driveTick_tracking hOwner hPhase hLatched hWind,
      driveTick_ramping hOwner hPhase hLatched hWind⟩, fun t0 hPhase hWind => ⟨driveTick_turning hOwner hPhase hWind,
      fun hx hSpeed => ⟨fun hState => ?_, fun hState hPending => ?_, driveTick_closing_pending hOwner hPhase hWind hx hSpeed⟩⟩⟩
    · rw [← abortVerdict_eq]
      exact driveTick_aborting hOwner hPhase hWind hx hSpeed hState
    · have hClosing := driveTick_closing hOwner hPhase hWind hx hSpeed hState hPending
      rw [closingVerdict_eq] at hClosing
      exact hClosing
  case now =>
    obtain ⟨-, -, -, -, hCell⟩ := timers_shared (drivesTicked order s)
    rw [State.now, tick_drivesTicked, hCell]
    exact (driveTicks_shared (tickOrder order) (advanceTime s)).1
  case own =>
    intro d d'
    obtain ⟨hDrive, hSensor, hWatch, hQuiet⟩ := drivesTicked_own order s b
    have hTickDrive : d' = ((drivesTicked order s).bay b).drive := by simp only [d', tick_bay]
    have hTickState : ((tick order s).record b).state = ((drivesTicked order s).record b).state := by rw [State.record, tick_bay]; rfl
    have hTickSensor : ((tick order s).bay b).sensor = ((drivesTicked order s).bay b).sensor.tick := by rw [tick_bay]
    rw [← hTickDrive, ← hTickState] at hDrive
    rw [← hTickDrive] at hQuiet
    rw [← hTickState] at hWatch
    refine ⟨hDrive.sent, hDrive.awaited, hDrive.sequence, hDrive.reportAge, hDrive.latest, hDrive.moved,
      fun hRamping hTracking hWind => ⟨fun hOwner => ?_, fun hOwner => ?_⟩, ?_⟩
    · rw [hQuiet ⟨hRamping, hTracking, hWind⟩]
      exact quietTick_idle hOwner _
    · rw [hQuiet ⟨hRamping, hTracking, hWind⟩, hOwner]
      exact quietTick_manual _
    · intro l p h
      refine ⟨((drivesTicked order s).bay b).sensor.lossWatch.map fun v =>
        { v with pressureTimer := min 100 (v.pressureTimer + 1), temperatureTimer := min 1000 (v.temperatureTimer + 1) }, ?_,
        fun hState => ?_⟩
      · rw [hTickSensor, SensorLink.tick_fields, hSensor]
      · rw [hWatch hState]

end Sys2Proof.Machine
end

section
/-! PROOF. The layouts of payload fields, read and written: numbers, signed numbers, runs of fields (R170). -/

namespace Sys2Proof.Machine

/-! ## Numbers -/

theorem foldl_bytes (bs : List Byte) (n : Nat) :
    bs.foldl (fun n x => n * 256 + x.toNat) n = n * 256 ^ bs.length + natOf bs := by
  induction bs generalizing n with
  | nil => simp [natOf]
  | cons x bs ih =>
    rw [natOf, List.foldl_cons, List.foldl_cons, ih, ih (0 * 256 + x.toNat), List.length_cons, pow_succ]
    ring

theorem natOf_append (xs ys : List Byte) : natOf (xs ++ ys) = natOf xs * 256 ^ ys.length + natOf ys := by
  rw [natOf, List.foldl_append, foldl_bytes ys]
  rfl

theorem natOf_single (x : Byte) : natOf [x] = x.toNat := by simp [natOf]

theorem natOf_lt (bs : List Byte) : natOf bs < 256 ^ bs.length := by
  induction bs using List.reverseRecOn with
  | nil => simp [natOf]
  | append_singleton bs x ih =>
    have hx := x.isLt
    rw [natOf_append, natOf_single, List.length_append, List.length_singleton, pow_one, pow_succ]
    omega

theorem bytesOf_natOf (bs : List Byte) : bytesOf bs.length (natOf bs) = bs := by
  induction bs using List.reverseRecOn with
  | nil => rfl
  | append_singleton bs x ih =>
    have hx := x.isLt
    have hDiv : (natOf bs * 256 + x.toNat) / 256 = natOf bs := by omega
    have hLast : BitVec.ofNat 8 (natOf bs * 256 + x.toNat) = x := BitVec.eq_of_toNat_eq (by rw [BitVec.toNat_ofNat]; omega)
    rw [natOf_append, natOf_single, List.length_append, List.length_singleton, pow_one, bytesOf, hDiv, hLast, ih]

theorem natOf_bytesOf (k n : Nat) : natOf (bytesOf k n) = n % 256 ^ k := by
  induction k generalizing n with
  | zero => simp [natOf, bytesOf, Nat.mod_one]
  | succ k ih =>
    have hPow : 256 ^ (k + 1) = 256 * 256 ^ k := by rw [pow_succ, Nat.mul_comm]
    rw [bytesOf, natOf_append, natOf_single, ih, List.length_singleton, pow_one, BitVec.toNat_ofNat, hPow, Nat.mod_mul]
    omega

theorem fits_iff {k n : Nat} : fits k n = true ↔ n < 256 ^ k := decide_eq_true_iff

theorem natOf_bytesOf_fits {k n : Nat} (h : fits k n = true) : natOf (bytesOf k n) = n := by
  rw [natOf_bytesOf, Nat.mod_eq_of_lt (fits_iff.mp h)]

theorem fits_natOf {k : Nat} {bs : List Byte} (h : bs.length = k) : fits k (natOf bs) = true := fits_iff.mpr (h ▸ natOf_lt bs)

theorem bytesOf_natOf_length {k : Nat} {bs : List Byte} (h : bs.length = k) : bytesOf k (natOf bs) = bs := h ▸ bytesOf_natOf bs

/-! ## Signed numbers -/

theorem fitsSigned_iff {k : Nat} {v : Int} : fitsSigned k v = true ↔ -(256 ^ k : Nat) ≤ 2 * v ∧ 2 * v < (256 ^ k : Nat) := by
  unfold fitsSigned
  rw [Bool.and_eq_true, decide_eq_true_iff, decide_eq_true_iff]

theorem intOf_bounds {m n : Nat} {v : Int} (hn : n < m) (hv : v = if n * 2 < m then (n : Int) else n - m) :
    -(m : Int) ≤ 2 * v ∧ 2 * v < m ∧ (v % m).toNat = n := by
  have hMod : v % m = n := by
    split at hv
    · rw [hv]
      exact Int.emod_eq_of_lt (by omega) (by omega)
    · rw [hv, Int.sub_emod_right]
      exact Int.emod_eq_of_lt (by omega) (by omega)
  rw [hMod]
  split at hv <;> omega

theorem fitsSigned_intOf {k : Nat} {bs : List Byte} (h : bs.length = k) : fitsSigned k (intOf bs) = true := by
  subst h
  obtain ⟨hLow, hHigh, -⟩ := intOf_bounds (natOf_lt bs) (v := intOf bs) rfl
  exact fitsSigned_iff.mpr ⟨hLow, hHigh⟩

theorem bytesOfInt_intOf {k : Nat} {bs : List Byte} (h : bs.length = k) : bytesOfInt k (intOf bs) = bs := by
  subst h
  obtain ⟨-, -, hMod⟩ := intOf_bounds (natOf_lt bs) (v := intOf bs) rfl
  rw [bytesOfInt, hMod, bytesOf_natOf]

theorem intOf_bytesOfInt {k : Nat} {v : Int} (h : fitsSigned k v = true) : intOf (bytesOfInt k v) = v := by
  obtain ⟨hLow, hHigh⟩ := fitsSigned_iff.mp h
  have hPos : (0 : Int) < (256 ^ k : Nat) := by positivity
  have hNonneg := Int.emod_nonneg v (Int.ne_of_gt hPos)
  have hLt := Int.emod_lt_of_pos v hPos
  have hNat : natOf (bytesOfInt k v) = (v % (256 ^ k : Nat)).toNat := by
    rw [bytesOfInt, natOf_bytesOf, Nat.mod_eq_of_lt (by omega)]
  rw [intOf, hNat, length_bytesOfInt]
  generalize (256 ^ k : Nat) = m at *
  by_cases hv : 0 ≤ v
  · rw [Int.emod_eq_of_lt hv (by omega)]
    split <;> omega
  · have hMod : v % (m : Int) = v + m := by
      rw [← Int.add_emod_right]
      exact Int.emod_eq_of_lt (by omega) (by omega)
    rw [hMod]
    split <;> omega

/-! ## Runs of fields -/

theorem fields_eq_some_iff {ws : List Nat} {pl : List Byte} {xs : List (List Byte)} :
    fields ws pl = some xs ↔ xs.map List.length = ws ∧ xs.flatten = pl := by
  induction ws generalizing pl xs with
  | nil =>
    rw [fields]
    constructor
    · intro h
      split at h
      · next hEmpty => cases h; exact ⟨rfl, (List.isEmpty_iff.mp hEmpty).symm⟩
      · cases h
    · rintro ⟨hLengths, rfl⟩
      rw [List.map_eq_nil_iff.mp hLengths]
      rfl
  | cons w ws ih =>
    rw [fields]
    constructor
    · intro h
      split at h
      · cases h
      · next hw =>
        obtain ⟨ys, hys, rfl⟩ := Option.map_eq_some_iff.mp h
        obtain ⟨hLengths, hFlat⟩ := ih.mp hys
        refine ⟨?_, ?_⟩
        · rw [List.map_cons, hLengths, List.length_take, min_eq_left (by omega)]
        · rw [List.flatten_cons, hFlat, List.take_append_drop]
    · rintro ⟨hLengths, rfl⟩
      obtain ⟨x, ys, rfl, rfl, hRest⟩ := List.map_eq_cons_iff.mp hLengths
      rw [List.flatten_cons, if_neg (by rw [List.length_append]; omega), List.drop_left, List.take_left, ih.mpr ⟨hRest, rfl⟩]
      rfl

theorem fields_two_iff {v w : Nat} {pl : List Byte} {xs : List (List Byte)} :
    fields [v, w] pl = some xs ↔ ∃ a b : List Byte, xs = [a, b] ∧ a.length = v ∧ b.length = w ∧ pl = a ++ b := by
  rw [fields_eq_some_iff]
  constructor
  · rintro ⟨hLengths, rfl⟩
    obtain ⟨a, ys, rfl, ha, hRest⟩ := List.map_eq_cons_iff.mp hLengths
    obtain ⟨b, zs, rfl, hb, hNil⟩ := List.map_eq_cons_iff.mp hRest
    obtain rfl := List.map_eq_nil_iff.mp hNil
    exact ⟨a, b, rfl, ha, hb, by simp⟩
  · rintro ⟨a, b, rfl, ha, hb, rfl⟩
    simp [ha, hb]

/-! ## Payloads of one and of two numbers -/

theorem parseNone_eq_some {i cmd : Instr} {pl : List Byte} : parseNone i pl = some cmd ↔ pl = [] ∧ cmd = i := by
  unfold parseNone
  rw [Option.ite_none_right_eq_some, List.isEmpty_iff, Option.some.injEq, eq_comm (a := i)]

theorem parseOne_eq_some {w : Nat} {f : Nat → Instr} {pl : List Byte} {cmd : Instr} :
    parseOne w f pl = some cmd ↔ ∃ n, fits w n = true ∧ pl = bytesOf w n ∧ cmd = f n := by
  unfold parseOne
  rw [Option.ite_none_right_eq_some, Option.some.injEq]
  constructor
  · rintro ⟨hLength, rfl⟩
    exact ⟨natOf pl, fits_natOf hLength, (bytesOf_natOf_length hLength).symm, rfl⟩
  · rintro ⟨n, hn, rfl, rfl⟩
    exact ⟨length_bytesOf .., by rw [natOf_bytesOf_fits hn]⟩

theorem parseTwo_eq_some {v w : Nat} {f : Nat → Nat → Instr} {pl : List Byte} {cmd : Instr} : parseTwo v w f pl = some cmd ↔
    ∃ m n, fits v m = true ∧ fits w n = true ∧ pl = bytesOf v m ++ bytesOf w n ∧ cmd = f m n := by
  unfold parseTwo
  constructor
  · intro h
    split at h
    · next a b hFields =>
      obtain ⟨a, b, hab, ha, hb, rfl⟩ := fields_two_iff.mp hFields
      cases hab
      cases h
      exact ⟨natOf a, natOf b, fits_natOf ha, fits_natOf hb, by rw [bytesOf_natOf_length ha, bytesOf_natOf_length hb], rfl⟩
    · cases h
  · rintro ⟨m, n, hm, hn, rfl, rfl⟩
    rw [fields_two_iff.mpr ⟨_, _, rfl, length_bytesOf .., length_bytesOf .., rfl⟩]
    simp only [natOf_bytesOf_fits hm, natOf_bytesOf_fits hn]

theorem parseSigned_eq_some {w : Nat} {f : Nat → Int → Instr} {pl : List Byte} {cmd : Instr} : parseSigned w f pl = some cmd ↔
    ∃ m v, fits 1 m = true ∧ fitsSigned w v = true ∧ pl = bytesOf 1 m ++ bytesOfInt w v ∧ cmd = f m v := by
  unfold parseSigned
  constructor
  · intro h
    split at h
    · next a b hFields =>
      obtain ⟨a, b, hab, ha, hb, rfl⟩ := fields_two_iff.mp hFields
      cases hab
      cases h
      exact ⟨natOf a, intOf b, fits_natOf ha, fitsSigned_intOf hb, by rw [bytesOf_natOf_length ha, bytesOfInt_intOf hb], rfl⟩
    · cases h
  · rintro ⟨m, v, hm, hv, rfl, rfl⟩
    rw [fields_two_iff.mpr ⟨_, _, rfl, length_bytesOf .., length_bytesOfInt .., rfl⟩]
    simp only [natOf_bytesOf_fits hm, intOf_bytesOfInt hv]

end Sys2Proof.Machine
end

section
/-! PROOF. Coded values, equal parts and the payloads with layouts of their own: PRESENT, CONFIGURE BAY, PUBLISH PLAN, WRITE VARIANT
and WRITE STEP (R170 to R172). -/

namespace Sys2Proof.Machine

/-! ## Equal parts -/

theorem part_length {w n i : Nat} {bs : List Byte} (h : bs.length = w * n) (hi : i < n) : (part w i bs).length = w := by
  have hRoom : w * i + w ≤ w * n := by rw [← Nat.mul_succ]; exact Nat.mul_le_mul_left w hi
  rw [part, List.length_take, List.length_drop, h]
  omega

/-- A run of bytes is its equal parts. -/
theorem flatten_parts {w n : Nat} {bs : List Byte} (h : bs.length = w * n) :
    ((List.range n).map fun i => part w i bs).flatten = bs := by
  induction n generalizing bs with
  | zero => rw [List.length_eq_zero_iff.mp (h.trans (Nat.mul_zero w))]; rfl
  | succ n ih =>
    have hDrop : (bs.drop w).length = w * n := by rw [List.length_drop, h, Nat.mul_succ]; omega
    have hNext : ∀ i, part w (i + 1) bs = part w i (bs.drop w) := fun i => by
      rw [part, part, List.drop_drop, Nat.mul_succ, Nat.add_comm]
    rw [List.range_succ_eq_map, List.map_cons, List.map_map, List.flatten_cons]
    simp only [Function.comp_def, Nat.succ_eq_add_one, hNext]
    rw [ih hDrop, part, Nat.mul_zero, List.drop_zero, List.take_append_drop]

theorem part_flatten {w : Nat} {l : List (List Byte)} (h : ∀ y ∈ l, y.length = w) {i : Nat} (hi : i < l.length) :
    part w i l.flatten = l[i] := by
  induction l generalizing i with
  | nil => cases hi
  | cons y l ih =>
    have hy : y.length = w := h y List.mem_cons_self
    cases i with
    | zero => rw [part, Nat.mul_zero, List.drop_zero, List.flatten_cons, ← hy, List.take_left]; rfl
    | succ i =>
      have hDrop : (y ++ l.flatten).drop (w * (i + 1)) = l.flatten.drop (w * i) := by
        rw [Nat.mul_succ, Nat.add_comm, ← List.drop_drop, ← hy, List.drop_left]
      rw [part, List.flatten_cons, hDrop]
      exact ih (fun z hz => h z (List.mem_cons_of_mem _ hz)) (Nat.lt_of_succ_lt_succ hi)

section Vectors
variable {α : Type} {n w : Nat} {enc : α → List Byte} {dec : List Byte → α}

/-- Parts decoded and encoded. -/
theorem encode_parts {bs : List Byte} (hLength : bs.length = w * n) (h : ∀ c : List Byte, c.length = w → enc (dec c) = c) :
    ((Vector.ofFn fun i : Fin n => dec (part w i.val bs)).toList.map enc).flatten = bs := by
  have hList : (Vector.ofFn fun i : Fin n => dec (part w i.val bs)).toList.map enc = (List.range n).map fun i => part w i bs := by
    refine List.ext_getElem (by simp) fun i hi hi' => ?_
    have hn : i < n := by simpa using hi'
    simp only [List.getElem_map, Vector.getElem_toList, Vector.getElem_ofFn, List.getElem_range]
    exact h _ (part_length hLength hn)
  rw [hList, flatten_parts hLength]

theorem part_encoded {v : Vector α n} (hWidth : ∀ a, (enc a).length = w) (i : Fin n) :
    part w i.val (v.toList.map enc).flatten = enc v[i] := by
  have hMem : ∀ y ∈ v.toList.map enc, y.length = w := fun y hy => by
    obtain ⟨a, -, rfl⟩ := List.mem_map.mp hy
    exact hWidth a
  rw [part_flatten hMem (by simp)]
  simp

end Vectors

/-! ## Coded values -/

theorem lineModeOf_eq_some_iff {n : Nat} {l : LineMode} : lineModeOf n = some l ↔ n = lineModeCode l := by
  unfold lineModeOf
  split <;> cases l <;> simp_all [lineModeCode]

theorem mapOf_eq_some_iff {x : Byte} {m : FunctionMap} : mapOf x.toNat = some m ↔ mapByte m = x := by
  obtain ⟨clamp, couple, sealHeads, vent⟩ := m
  have hx := x.isLt
  have hBounds : ∀ l, 1 ≤ lineModeCode l ∧ lineModeCode l ≤ 2 := fun l => by cases l <;> decide
  have hParts : mapOf x.toNat = some ⟨clamp, couple, sealHeads, vent⟩ ↔ x.toNat % 4 = lineModeCode clamp ∧
      x.toNat / 4 % 4 = lineModeCode couple ∧ x.toNat / 16 % 4 = lineModeCode sealHeads ∧ x.toNat / 64 % 4 = lineModeCode vent := by
    simp [mapOf, Option.bind_eq_some_iff, lineModeOf_eq_some_iff, Option.pure_def, Option.bind_eq_bind]
  have h1 := hBounds clamp
  have h2 := hBounds couple
  have h3 := hBounds sealHeads
  have h4 := hBounds vent
  rw [hParts, mapByte, ← BitVec.toNat_inj, BitVec.toNat_ofNat]
  dsimp only
  generalize lineModeCode clamp = a at *
  generalize lineModeCode couple = b at *
  generalize lineModeCode sealHeads = c at *
  generalize lineModeCode vent = d at *
  omega

theorem flagOf_eq_some_iff {x : Byte} {v : Bool} : flagOf x.toNat = some v ↔ byteOfBool v = [x] := by
  have hFlag : flagOf x.toNat = some v ↔ x.toNat = if v then 1 else 0 := by
    unfold flagOf
    split <;> cases v <;> simp_all
  rw [hFlag, byteOfBool, List.cons.injEq, eq_self_iff_true, and_true, ← BitVec.toNat_inj]
  cases v <;> simp [eq_comm]

theorem kindOf_eq_some_iff {n : Nat} {k : StepKind} : kindOf n = some k ↔ n = kindCode k := by
  unfold kindOf
  split <;> cases k <;> simp_all [kindCode]

theorem skipOf_eq_some_iff {n : Nat} {t : SkipTest} : skipOf n = some t ↔ n = skipCode t := by
  unfold skipOf
  split <;> cases t <;> simp_all [skipCode]

/-! ## References (R172) -/

theorem refOf_eq_some_iff {x : Byte} {value : List Byte} {r : Ref} (h : value.length = 3) :
    refOf x.toNat value = some r ↔ refBytes r = x :: value ∧ r.wellFormed = true := by
  have hForm : ∀ k : Nat, k < 256 → (x.toNat = k ↔ BitVec.ofNat 8 k = x) := fun k hk => by
    rw [← BitVec.toNat_inj, BitVec.toNat_ofNat, Nat.mod_eq_of_lt hk, eq_comm]
  constructor
  · intro hRef
    unfold refOf at hRef
    split at hRef
    · next hx => cases hRef; exact ⟨by rw [refBytes, bytesOfInt_intOf h, ← (hForm 1 (by decide)).mp hx]; rfl, fitsSigned_intOf h⟩
    · next hx => cases hRef; exact ⟨by rw [refBytes, bytesOf_natOf_length h, ← (hForm 2 (by decide)).mp hx]; rfl, fits_natOf h⟩
    · next hx => cases hRef; exact ⟨by rw [refBytes, bytesOf_natOf_length h, ← (hForm 3 (by decide)).mp hx]; rfl, fits_natOf h⟩
    · next hx => cases hRef; exact ⟨by rw [refBytes, bytesOf_natOf_length h, ← (hForm 4 (by decide)).mp hx]; rfl, fits_natOf h⟩
    · cases hRef
  · rintro ⟨hBytes, hFits⟩
    cases r with
    | immediate v =>
      obtain ⟨rfl, rfl⟩ := List.cons.inj hBytes
      exact congrArg (fun v => some (Ref.immediate v)) (intOf_bytesOfInt hFits)
    | variant i =>
      obtain ⟨rfl, rfl⟩ := List.cons.inj hBytes
      exact congrArg (fun i => some (Ref.variant i)) (natOf_bytesOf_fits hFits)
    | common i =>
      obtain ⟨rfl, rfl⟩ := List.cons.inj hBytes
      exact congrArg (fun i => some (Ref.common i)) (natOf_bytesOf_fits hFits)
    | indirect i =>
      obtain ⟨rfl, rfl⟩ := List.cons.inj hBytes
      exact congrArg (fun i => some (Ref.indirect i)) (natOf_bytesOf_fits hFits)

/-- The reference of four bytes. -/
def refOfPart (c : List Byte) : Option Ref := refOf (natOf (c.take 1)) (c.drop 1)

theorem refOfPart_eq_some_iff {c : List Byte} {r : Ref} (h : c.length = 4) :
    refOfPart c = some r ↔ refBytes r = c ∧ r.wellFormed = true := by
  cases c with
  | nil => cases h
  | cons x value =>
    rw [refOfPart, List.take_succ_cons, List.take_zero, natOf_single, List.drop_succ_cons, List.drop_zero]
    exact refOf_eq_some_iff (Nat.succ.inj h)

/-- The ten references of the step layout, read and written. -/
theorem refsOf_eq_some_iff {bs : List Byte} {rs : Vector Ref Config.refCount} (h : bs.length = 40) :
    refsOf bs = some rs ↔ (rs.toList.map refBytes).flatten = bs ∧ rs.toList.all Ref.wellFormed = true := by
  have hLength : bs.length = 4 * Config.refCount := h
  have hRead : refsOf bs = some rs ↔ ∀ i : Fin Config.refCount, refOfPart (part 4 i.val bs) = some rs[i] := by
    unfold refsOf
    rw [Option.ite_none_right_eq_some, List.all_eq_true, Option.some.injEq]
    constructor
    · rintro ⟨hAll, rfl⟩ i
      obtain ⟨r, hr⟩ := Option.isSome_iff_exists.mp (hAll i.val (List.mem_range.mpr i.isLt))
      have hr' : refOfPart (part 4 i.val bs) = some r := hr
      simp only [Fin.getElem_fin, Vector.getElem_ofFn]
      rw [hr', show refAt bs i.val = some r from hr]
      rfl
    · intro hRefs
      refine ⟨fun i hi => ?_, Vector.ext fun i hi => ?_⟩
      · exact Option.isSome_iff_exists.mpr ⟨_, hRefs ⟨i, List.mem_range.mp hi⟩⟩
      · rw [Vector.getElem_ofFn, show refAt bs i = some rs[i] from hRefs ⟨i, hi⟩]
        rfl
  rw [hRead]
  constructor
  · intro hRefs
    have hParts : ∀ i : Fin Config.refCount, refBytes rs[i] = part 4 i.val bs ∧ (rs[i]).wellFormed = true := fun i =>
      (refOfPart_eq_some_iff (part_length hLength i.isLt)).mp (hRefs i)
    refine ⟨?_, List.all_eq_true.mpr fun r hr => ?_⟩
    · have hList : rs.toList.map refBytes = (List.range Config.refCount).map fun i => part 4 i bs := by
        refine List.ext_getElem (by simp) fun i hi hi' => ?_
        have hn : i < Config.refCount := by simpa using hi'
        simp only [List.getElem_map, Vector.getElem_toList, List.getElem_range]
        exact (hParts ⟨i, hn⟩).1
      rw [hList, flatten_parts hLength]
    · obtain ⟨i, hi, rfl⟩ := List.mem_iff_getElem.mp hr
      rw [Vector.length_toList] at hi
      rw [Vector.getElem_toList]
      exact (hParts ⟨i, hi⟩).2
  · rintro ⟨rfl, hAll⟩ i
    rw [part_encoded length_refBytes i, refOfPart_eq_some_iff (length_refBytes _)]
    exact ⟨rfl, List.all_eq_true.mp hAll _ (by simp)⟩

end Sys2Proof.Machine
end

section
/-! PROOF. The payloads with layouts of their own, read as commands and written (R171, R172). -/

namespace Sys2Proof.Machine

variable {p : PortId} {pl : List Byte} {cmd : Instr}

/-! ## Fields one after the other -/

theorem fields_cons_iff {w : Nat} {ws : List Nat} {xs : List (List Byte)} : fields (w :: ws) pl = some xs ↔
    ∃ (a : List Byte) (ys : List (List Byte)) (rest : List Byte), xs = a :: ys ∧ a.length = w ∧ pl = a ++ rest ∧
      fields ws rest = some ys := by
  simp only [fields_eq_some_iff]
  constructor
  · rintro ⟨hLengths, rfl⟩
    obtain ⟨a, ys, rfl, ha, hRest⟩ := List.map_eq_cons_iff.mp hLengths
    exact ⟨a, ys, ys.flatten, rfl, ha, List.flatten_cons, hRest, rfl⟩
  · rintro ⟨a, ys, rest, rfl, rfl, rfl, rfl, rfl⟩
    exact ⟨rfl, List.flatten_cons⟩

/-- A field of one byte. -/
theorem fields_byte_iff {ws : List Nat} {xs : List (List Byte)} : fields (1 :: ws) pl = some xs ↔
    ∃ (x : Byte) (ys : List (List Byte)) (rest : List Byte), xs = [x] :: ys ∧ pl = x :: rest ∧ fields ws rest = some ys := by
  rw [fields_cons_iff]
  constructor
  · rintro ⟨a, ys, rest, rfl, ha, rfl, hRest⟩
    obtain ⟨x, rfl⟩ := List.length_eq_one_iff.mp ha
    exact ⟨x, ys, rest, rfl, rfl, hRest⟩
  · rintro ⟨x, ys, rest, rfl, rfl, hRest⟩
    exact ⟨[x], ys, rest, rfl, rfl, rfl, hRest⟩

theorem fields_last_iff {w : Nat} {xs : List (List Byte)} : fields [w] pl = some xs ↔ pl.length = w ∧ xs = [pl] := by
  rw [fields_eq_some_iff]
  constructor
  · rintro ⟨hLengths, rfl⟩
    obtain ⟨a, ys, rfl, ha, hNil⟩ := List.map_eq_cons_iff.mp hLengths
    obtain rfl := List.map_eq_nil_iff.mp hNil
    simpa using ha
  · rintro ⟨rfl, rfl⟩
    simp

theorem toNat_of_fits {n : Nat} (h : fits 1 n = true) : (BitVec.ofNat 8 n).toNat = n := by
  rw [BitVec.toNat_ofNat]
  exact Nat.mod_eq_of_lt (fits_iff.mp h)

theorem fits_toNat (x : Byte) : fits 1 x.toNat = true := fits_iff.mpr x.isLt

theorem bytesOf_toNat (x : Byte) : bytesOf 1 x.toNat = [x] := by
  rw [bytesOf_one, BitVec.ofNat_toNat, BitVec.setWidth_eq]

/-! ## PRESENT -/

theorem parsePresent_eq_some : parsePresent p pl = some cmd ↔
    (∃ n serial code, cmd = .present p n serial code) ∧ cmd.wellFormed = true ∧ requestPayload cmd = pl := by
  constructor
  · intro h
    unfold parsePresent at h
    split at h
    · next bay n rest =>
      split at h
      · next hn =>
        cases h
        obtain ⟨hLow, hHigh, hLength⟩ := hn
        have hSerial : (rest.take n.toNat).length = n.toNat := by rw [List.length_take, hLength]; omega
        have hCode : (rest.drop n.toNat).length = 2 := by rw [List.length_drop, hLength]; omega
        refine ⟨⟨_, _, _, rfl⟩, ?_, ?_⟩
        · simp [Instr.wellFormed, hSerial, fits_toNat, fits_natOf hCode, hLow, hHigh]
        · rw [requestPayload, hSerial, bytesOf_toNat, bytesOf_toNat, bytesOf_natOf_length hCode, List.append_assoc,
            List.take_append_drop]
          rfl
      · cases h
    · cases h
  · rintro ⟨⟨b, serial, code, rfl⟩, hFits, rfl⟩
    simp only [Instr.wellFormed, Bool.and_eq_true, decide_eq_true_iff] at hFits
    obtain ⟨⟨⟨hb, hLow⟩, hHigh⟩, hCode⟩ := hFits
    have hLength : (BitVec.ofNat 8 serial.length).toNat = serial.length := toNat_of_fits (fits_iff.mpr (by omega))
    have hPayload : requestPayload (.present p b serial code) =
        BitVec.ofNat 8 b :: BitVec.ofNat 8 serial.length :: (serial ++ bytesOf 2 code) := by
      rw [requestPayload, bytesOf_one, bytesOf_one, List.append_assoc]
      rfl
    rw [hPayload, parsePresent]
    simp only [hLength, List.length_append, length_bytesOf, and_true, hLow, hHigh, if_true, List.take_left, List.drop_left,
      toNat_of_fits hb, natOf_bytesOf_fits hCode]

/-! ## CONFIGURE BAY -/

theorem parseConfigureBay_eq_some : parseConfigureBay p pl = some cmd ↔
    (∃ n speed width angle m, cmd = .configureBay p n speed width angle m) ∧ cmd.wellFormed = true ∧ requestPayload cmd = pl := by
  constructor
  · intro h
    unfold parseConfigureBay at h
    split at h
    · next bay speed width angle m hFields =>
      obtain ⟨x1, ys1, r1, e1, rfl, hRest1⟩ := fields_byte_iff.mp hFields
      obtain ⟨a2, ys2, r2, rfl, hSpeed, rfl, hRest2⟩ := fields_cons_iff.mp hRest1
      obtain ⟨x3, ys3, r3, rfl, rfl, hRest3⟩ := fields_byte_iff.mp hRest2
      obtain ⟨x4, ys4, r4, rfl, rfl, hRest4⟩ := fields_byte_iff.mp hRest3
      obtain ⟨x5, ys5, r5, rfl, rfl, hRest5⟩ := fields_byte_iff.mp hRest4
      obtain ⟨hNil, rfl⟩ := fields_eq_some_iff.mp hRest5
      obtain rfl := List.map_eq_nil_iff.mp hNil
      cases e1
      obtain ⟨f, hMap, rfl⟩ := Option.map_eq_some_iff.mp h
      rw [natOf_single, mapOf_eq_some_iff] at hMap
      refine ⟨⟨_, _, _, _, _, rfl⟩, ?_, ?_⟩
      · simp only [Instr.wellFormed, natOf_single, fits_toNat, fits_natOf hSpeed, Bool.and_self]
      · simp only [requestPayload, natOf_single, bytesOf_toNat, bytesOf_natOf_length hSpeed, hMap]
        simp
    · cases h
  · rintro ⟨⟨b, speed, width, angle, m, rfl⟩, hFits, rfl⟩
    simp only [Instr.wellFormed, Bool.and_eq_true] at hFits
    obtain ⟨⟨⟨hb, hSpeed⟩, hWidth⟩, hAngle⟩ := hFits
    have hFields : fields [1, 2, 1, 1, 1] (requestPayload (.configureBay p b speed width angle m)) =
        some [bytesOf 1 b, bytesOf 2 speed, bytesOf 1 width, bytesOf 1 angle, [mapByte m]] := by
      rw [fields_eq_some_iff]
      simp [requestPayload]
    simp only [parseConfigureBay, hFields, natOf_bytesOf_fits hb, natOf_bytesOf_fits hSpeed, natOf_bytesOf_fits hWidth,
      natOf_bytesOf_fits hAngle, natOf_single, mapOf_eq_some_iff.mpr (rfl : mapByte m = mapByte m), Option.map_some]

/-! ## PUBLISH PLAN -/

theorem parsePublishPlan_eq_some : parsePublishPlan p pl = some cmd ↔
    (∃ n head flag, cmd = .publishPlan p n head flag) ∧ cmd.wellFormed = true ∧ requestPayload cmd = pl := by
  constructor
  · intro h
    unfold parsePublishPlan at h
    split at h
    · next plan head flag hFields =>
      obtain ⟨x1, ys1, r1, e1, rfl, hRest1⟩ := fields_byte_iff.mp hFields
      obtain ⟨x2, ys2, r2, rfl, rfl, hRest2⟩ := fields_byte_iff.mp hRest1
      obtain ⟨hLength, rfl⟩ := fields_last_iff.mp hRest2
      obtain ⟨x3, rfl⟩ := List.length_eq_one_iff.mp hLength
      cases e1
      obtain ⟨v, hFlag, rfl⟩ := Option.map_eq_some_iff.mp h
      rw [natOf_single, flagOf_eq_some_iff] at hFlag
      refine ⟨⟨_, _, _, rfl⟩, ?_, ?_⟩
      · simp only [Instr.wellFormed, natOf_single, fits_toNat, Bool.and_self]
      · simp only [requestPayload, natOf_single, bytesOf_toNat, hFlag]
        rfl
    · cases h
  · rintro ⟨⟨n, head, v, rfl⟩, hFits, rfl⟩
    simp only [Instr.wellFormed, Bool.and_eq_true] at hFits
    obtain ⟨hn, hHead⟩ := hFits
    have hFields : fields [1, 1, 1] (requestPayload (.publishPlan p n head v)) = some [bytesOf 1 n, bytesOf 1 head, byteOfBool v] := by
      rw [fields_eq_some_iff]
      simp [requestPayload, byteOfBool]
    have hFlag : flagOf (natOf (byteOfBool v)) = some v := by
      rw [show byteOfBool v = [if v then 1 else 0] from rfl, natOf_single]
      exact flagOf_eq_some_iff.mpr rfl
    simp only [parsePublishPlan, hFields, natOf_bytesOf_fits hn, natOf_bytesOf_fits hHead, hFlag, Option.map_some]

/-! ## WRITE VARIANT -/

theorem cellsOf_encoded {cells : Vector Int Config.variantCellCount} (h : cells.toList.all (fitsSigned 3) = true) :
    cellsOf (cells.toList.map (bytesOfInt 3)).flatten = cells := by
  refine Vector.ext fun i hi => ?_
  have hPart := part_encoded (v := cells) (enc := bytesOfInt 3) (fun a => length_bytesOfInt 3 a) ⟨i, hi⟩
  have hFits : fitsSigned 3 cells[i] = true := List.all_eq_true.mp h _ (by simp)
  simp only [cellsOf, Vector.getElem_ofFn, hPart]
  exact intOf_bytesOfInt hFits

theorem cellsOf_fits {bs : List Byte} (h : bs.length = 48) : (cellsOf bs).toList.all (fitsSigned 3) = true := by
  have hLength : bs.length = 3 * Config.variantCellCount := h
  refine List.all_eq_true.mpr fun v hv => ?_
  obtain ⟨i, hi, rfl⟩ := List.mem_iff_getElem.mp hv
  rw [Vector.length_toList] at hi
  simp only [Vector.getElem_toList, cellsOf, Vector.getElem_ofFn]
  exact fitsSigned_intOf (part_length hLength hi)

theorem parseWriteVariant_eq_some : parseWriteVariant p pl = some cmd ↔
    (∃ code n cells, cmd = .writeVariant p code n cells) ∧ cmd.wellFormed = true ∧ requestPayload cmd = pl := by
  constructor
  · intro h
    unfold parseWriteVariant at h
    split at h
    · next code plan cells hFields =>
      obtain ⟨a1, ys1, r1, e1, hCode, rfl, hRest1⟩ := fields_cons_iff.mp hFields
      obtain ⟨x2, ys2, r2, rfl, rfl, hRest2⟩ := fields_byte_iff.mp hRest1
      obtain ⟨hCells, rfl⟩ := fields_last_iff.mp hRest2
      cases e1
      cases h
      refine ⟨⟨_, _, _, rfl⟩, ?_, ?_⟩
      · simp only [Instr.wellFormed, natOf_single, fits_toNat, fits_natOf hCode, cellsOf_fits hCells, Bool.and_self]
      · simp only [requestPayload, natOf_single, bytesOf_toNat, bytesOf_natOf_length hCode]
        rw [cellsOf, encode_parts (enc := bytesOfInt 3) (dec := intOf) hCells fun c hc => bytesOfInt_intOf hc, List.append_assoc]
        rfl
    · cases h
  · rintro ⟨⟨code, n, cells, rfl⟩, hFits, rfl⟩
    simp only [Instr.wellFormed, Bool.and_eq_true] at hFits
    obtain ⟨⟨hCode, hn⟩, hCells⟩ := hFits
    have hLength : ((cells.toList.map (bytesOfInt 3)).flatten).length = 48 := by
      rw [length_flatten_map (fun a => length_bytesOfInt 3 a), Vector.length_toList] <;> rfl
    have hFields : fields [2, 1, 48] (requestPayload (.writeVariant p code n cells)) =
        some [bytesOf 2 code, bytesOf 1 n, (cells.toList.map (bytesOfInt 3)).flatten] := by
      rw [fields_eq_some_iff]
      refine ⟨?_, ?_⟩
      · simp only [List.map_cons, List.map_nil, length_bytesOf, hLength]
      · simp only [List.flatten_cons, List.flatten_nil, requestPayload, List.append_nil, List.append_assoc]
    simp only [parseWriteVariant, hFields, natOf_bytesOf_fits hCode, natOf_bytesOf_fits hn, cellsOf_encoded hCells]

end Sys2Proof.Machine
end

section
/-! PROOF. WRITE STEP read and written (R172), and every command of the catalogue from its code and payload (O17, O41). -/

namespace Sys2Proof.Machine

variable {p : PortId} {pl : List Byte} {cmd : Instr}

/-! ## WRITE STEP (R172) -/

/-- A payload as its command would be written: the audit cell byte of a WRITE STEP counts only with skip test AUDIT. -/
def layoutOf (code : Nat) (pl : List Byte) : List Byte := if code = 0x31 ∧ pl[3]? ≠ some 5#8 then pl.set 4 0 else pl

theorem layoutOf_other {code : Nat} (h : code ≠ 0x31) (pl : List Byte) : layoutOf code pl = pl := if_neg fun hc => h hc.1

theorem length_layoutOf (code : Nat) (pl : List Byte) : (layoutOf code pl).length = pl.length := by
  unfold layoutOf
  split
  · exact List.length_set
  · rfl

/-- The fields of the step layout. -/
structure StepFields where
  plan : Byte
  slot : Byte
  kind : Byte
  skip : Byte
  cell : Byte
  next : Byte
  refs : List Byte

def StepFields.bytes (f : StepFields) : List Byte := f.plan :: f.slot :: f.kind :: f.skip :: f.cell :: f.next :: f.refs

theorem stepFields_of_length (h : pl.length = 46) : ∃ f : StepFields, f.refs.length = 40 ∧ pl = f.bytes := by
  match pl, h with
  | a :: b :: c :: d :: e :: g :: refs, h => exact ⟨⟨a, b, c, d, e, g, refs⟩, by simpa using h, rfl⟩

theorem layoutOf_step (f : StepFields) : layoutOf 0x31 f.bytes = { f with cell := if f.skip = 5 then f.cell else 0 }.bytes := by
  have hSkip : f.bytes[3]? = some f.skip := rfl
  rw [layoutOf, hSkip]
  by_cases h : f.skip = 5
  · rw [if_neg (by simp [h]), if_pos h]
  · rw [if_pos (by simpa using h), if_neg h]
    rfl

theorem parseWriteStep_fields {f : StepFields} (h : f.refs.length = 40) : parseWriteStep p f.bytes =
    (recordOf f.kind.toNat f.skip.toNat f.cell.toNat f.next.toNat f.refs).map (.writeStep p f.plan.toNat f.slot.toNat) := by
  have hFields : fields [1, 1, 1, 1, 1, 1, 40] f.bytes = some [[f.plan], [f.slot], [f.kind], [f.skip], [f.cell], [f.next], f.refs] := by
    rw [fields_eq_some_iff]
    simp [StepFields.bytes, h]
  simp only [parseWriteStep, hFields, natOf_single]

theorem parseWriteStep_length (h : parseWriteStep p pl = some cmd) : pl.length = 46 := by
  unfold parseWriteStep at h
  split at h
  · next hFields =>
    obtain ⟨hLengths, rfl⟩ := fields_eq_some_iff.mp hFields
    rw [List.length_flatten, hLengths]
    rfl
  · cases h

theorem recordOf_eq_some_iff {kind skip cell next : Nat} {refs : List Byte} {r : StepRecord} (hRefs : refs.length = 40) :
    recordOf kind skip cell next refs = some r ↔ kind = kindCode r.kind ∧ skip = skipCode r.skip ∧
      (r.auditCell = if r.skip = .audit then some cell else none) ∧ r.next = next ∧
      (r.refs.toList.map refBytes).flatten = refs ∧ r.refs.toList.all Ref.wellFormed = true := by
  obtain ⟨k, t, c, n, rs⟩ := r
  have hRecord : recordOf kind skip cell next refs = some ⟨k, t, c, n, rs⟩ ↔ kindOf kind = some k ∧ skipOf skip = some t ∧
      refsOf refs = some rs ∧ (if t = .audit then some cell else none) = c ∧ next = n := by
    unfold recordOf
    cases kindOf kind with
    | none => simp
    | some k' =>
      cases skipOf skip with
      | none => simp
      | some t' =>
        cases refsOf refs with
        | none => simp
        | some rs' =>
          simp only [Option.pure_def, Option.bind_eq_bind, Option.bind_some, Option.some.injEq, StepRecord.mk.injEq]
          constructor
          · rintro ⟨rfl, rfl, rfl, rfl, rfl⟩; exact ⟨rfl, rfl, rfl, rfl, rfl⟩
          · rintro ⟨rfl, rfl, rfl, rfl, rfl⟩; exact ⟨rfl, rfl, rfl, rfl, rfl⟩
  rw [hRecord, kindOf_eq_some_iff, skipOf_eq_some_iff, refsOf_eq_some_iff hRefs]
  constructor
  · rintro ⟨hKind, hSkip, ⟨hBytes, hAll⟩, rfl, rfl⟩; exact ⟨hKind, hSkip, rfl, rfl, hBytes, hAll⟩
  · rintro ⟨hKind, hSkip, hCell, rfl, hBytes, hAll⟩; exact ⟨hKind, hSkip, ⟨hBytes, hAll⟩, hCell.symm, rfl⟩

/-- The fields of a written step. -/
def writtenFields (n k : Nat) (r : StepRecord) : StepFields where
  plan := BitVec.ofNat 8 n
  slot := BitVec.ofNat 8 k
  kind := BitVec.ofNat 8 (kindCode r.kind)
  skip := BitVec.ofNat 8 (skipCode r.skip)
  cell := BitVec.ofNat 8 (r.auditCell.getD 0)
  next := BitVec.ofNat 8 r.next
  refs := (r.refs.toList.map refBytes).flatten

theorem stepBytes_eq (n k : Nat) (r : StepRecord) : stepBytes n k r = (writtenFields n k r).bytes := by
  simp only [stepBytes, bytesOf_one, StepFields.bytes, writtenFields, List.cons_append, List.nil_append]

theorem skipCode_lt (t : SkipTest) : fits 1 (skipCode t) = true := by cases t <;> rfl
theorem kindCode_lt (k : StepKind) : fits 1 (kindCode k) = true := by cases k <;> rfl

theorem skip_audit_iff {x : Byte} {t : SkipTest} (h : x.toNat = skipCode t) : x = 5 ↔ t = .audit := by
  rw [← BitVec.toNat_inj, h]
  cases t <;> decide

theorem ofNat_of_toNat {x : Byte} {n : Nat} (h : x.toNat = n) : BitVec.ofNat 8 n = x := by
  rw [← h, BitVec.ofNat_toNat, BitVec.setWidth_eq]

/-- A step's fields are written from its record, the audit cell of a step without AUDIT as 0. -/
theorem writtenFields_of_record {f : StepFields} {r : StepRecord} (hRefs : f.refs.length = 40)
    (h : recordOf f.kind.toNat f.skip.toNat f.cell.toNat f.next.toNat f.refs = some r) :
    (Instr.writeStep p f.plan.toNat f.slot.toNat r).wellFormed = true ∧
    writtenFields f.plan.toNat f.slot.toNat r = { f with cell := if f.skip = 5 then f.cell else 0 } := by
  obtain ⟨hKind, hSkip, hCell, hNext, hBytes, hAll⟩ := (recordOf_eq_some_iff hRefs).mp h
  have hAudit := skip_audit_iff hSkip
  refine ⟨?_, ?_⟩
  · have hCellFits : fits 1 (r.auditCell.getD 0) = true := by
      rw [hCell]
      split
      · exact fits_toNat _
      · rfl
    have hIsSome : (r.auditCell.isSome == decide (r.skip = .audit)) = true := by
      rw [hCell]
      split <;> simp [*]
    simp only [Instr.wellFormed, StepRecord.wellFormed, fits_toNat, hCellFits, hIsSome, hNext, hAll, Bool.and_self]
  · have hCellByte : BitVec.ofNat 8 (r.auditCell.getD 0) = if f.skip = 5 then f.cell else 0 := by
      rw [hCell]
      by_cases ht : r.skip = .audit
      · rw [if_pos ht, if_pos (hAudit.mpr ht)]; exact ofNat_of_toNat rfl
      · rw [if_neg ht, if_neg (mt hAudit.mp ht)]; rfl
    simp only [writtenFields, hCellByte, hBytes, hNext, ofNat_of_toNat hKind, ofNat_of_toNat hSkip, ofNat_of_toNat rfl]

/-- A record is read back from its fields, whatever the audit cell byte without AUDIT. -/
theorem recordOf_written {f : StepFields} {n k : Nat} {r : StepRecord} (hRefs : f.refs.length = 40)
    (hFits : (Instr.writeStep p n k r).wellFormed = true)
    (h : writtenFields n k r = { f with cell := if f.skip = 5 then f.cell else 0 }) :
    f.plan.toNat = n ∧ f.slot.toNat = k ∧ recordOf f.kind.toNat f.skip.toNat f.cell.toNat f.next.toNat f.refs = some r := by
  simp only [Instr.wellFormed, StepRecord.wellFormed, Bool.and_eq_true, beq_iff_eq] at hFits
  obtain ⟨⟨hn, hk⟩, ⟨⟨hIsSome, hCellFits⟩, hNext⟩, hAll⟩ := hFits
  obtain ⟨plan, slot, kind, skip, cell, next, refs⟩ := f
  simp only [writtenFields, StepFields.mk.injEq] at h
  obtain ⟨rfl, rfl, rfl, rfl, hCell, rfl, rfl⟩ := h
  refine ⟨toNat_of_fits hn, toNat_of_fits hk, (recordOf_eq_some_iff hRefs).mpr ⟨toNat_of_fits (kindCode_lt _),
    toNat_of_fits (skipCode_lt _), ?_, (toNat_of_fits hNext).symm, rfl, hAll⟩⟩
  have hAudit := skip_audit_iff (toNat_of_fits (skipCode_lt r.skip))
  by_cases ht : r.skip = .audit
  · rw [if_pos (hAudit.mpr ht)] at hCell
    obtain ⟨c, hc⟩ := Option.isSome_iff_exists.mp (hIsSome.trans (decide_eq_true ht))
    rw [hc, Option.getD_some] at hCell hCellFits
    rw [if_pos ht, hc, ← hCell, toNat_of_fits hCellFits]
  · rw [if_neg ht]
    exact Option.not_isSome_iff_eq_none.mp (by rw [hIsSome]; simpa using ht)

theorem parseWriteStep_eq_some : parseWriteStep p pl = some cmd ↔
    (∃ n k r, cmd = .writeStep p n k r) ∧ cmd.wellFormed = true ∧ requestPayload cmd = layoutOf 0x31 pl := by
  constructor
  · intro h
    obtain ⟨f, hRefs, rfl⟩ := stepFields_of_length (parseWriteStep_length h)
    rw [parseWriteStep_fields hRefs] at h
    obtain ⟨r, hRecord, rfl⟩ := Option.map_eq_some_iff.mp h
    obtain ⟨hFits, hWritten⟩ := writtenFields_of_record (p := p) hRefs hRecord
    exact ⟨⟨_, _, _, rfl⟩, hFits, by rw [requestPayload, stepBytes_eq, hWritten, layoutOf_step]⟩
  · rintro ⟨⟨n, k, r, rfl⟩, hFits, hPayload⟩
    rw [requestPayload] at hPayload
    have hLength : pl.length = 46 := by rw [← length_layoutOf 0x31, ← hPayload, length_stepBytes]
    obtain ⟨f, hRefs, rfl⟩ := stepFields_of_length hLength
    rw [stepBytes_eq, layoutOf_step] at hPayload
    have hWritten : writtenFields n k r = { f with cell := if f.skip = 5 then f.cell else 0 } := by
      unfold StepFields.bytes at hPayload
      simp only [List.cons.injEq] at hPayload
      obtain ⟨h1, h2, h3, h4, h5, h6, h7⟩ := hPayload
      exact StepFields.mk.injEq .. ▸ ⟨h1, h2, h3, h4, h5, h6, h7⟩
    obtain ⟨hPlan, hSlot, hRecord⟩ := recordOf_written (p := p) hRefs hFits hWritten
    rw [parseWriteStep_fields hRefs, hRecord, hPlan, hSlot, Option.map_some]

end Sys2Proof.Machine
end

section
/-! PROOF. Every command of the catalogue from its code and payload, and back (O17, O41). -/

namespace Sys2Proof.Machine

variable {p : PortId} {pl : List Byte} {cmd : Instr} {code : Nat}

/-- A command that a payload of its code spells on a port (R168, R170). -/
structure Spells (p : PortId) (code : Nat) (pl : List Byte) (cmd : Instr) : Prop where
  fits : cmd.wellFormed = true
  port : portOf cmd = some p
  command : codeOf cmd = some code
  payload : requestPayload cmd = layoutOf code pl

theorem Spells.of_payload (hCode : code ≠ 0x31) (hFits : cmd.wellFormed = true) (hPort : portOf cmd = some p)
    (hCommand : codeOf cmd = some code) (hPayload : requestPayload cmd = pl) : Spells p code pl cmd :=
  ⟨hFits, hPort, hCommand, by rw [layoutOf_other hCode, hPayload]⟩

/-! ## From a payload to its command -/

section Read
variable (hCode : code ≠ 0x31)
include hCode

theorem spells_of_parseNone {i : Instr} (h : parseNone i pl = some cmd) (hFits : i.wellFormed = true) (hPort : portOf i = some p)
    (hCommand : codeOf i = some code) (hPayload : requestPayload i = []) : Spells p code pl cmd := by
  obtain ⟨rfl, rfl⟩ := parseNone_eq_some.mp h
  exact .of_payload hCode hFits hPort hCommand hPayload

theorem spells_of_parseOne {w : Nat} {f : Nat → Instr} (h : parseOne w f pl = some cmd)
    (hf : ∀ n, fits w n = true → (f n).wellFormed = true ∧ portOf (f n) = some p ∧ codeOf (f n) = some code ∧
      requestPayload (f n) = bytesOf w n) : Spells p code pl cmd := by
  obtain ⟨n, hn, rfl, rfl⟩ := parseOne_eq_some.mp h
  obtain ⟨hFits, hPort, hCommand, hPayload⟩ := hf n hn
  exact .of_payload hCode hFits hPort hCommand hPayload

theorem spells_of_parseTwo {v w : Nat} {f : Nat → Nat → Instr} (h : parseTwo v w f pl = some cmd)
    (hf : ∀ m n, fits v m = true → fits w n = true → (f m n).wellFormed = true ∧ portOf (f m n) = some p ∧
      codeOf (f m n) = some code ∧ requestPayload (f m n) = bytesOf v m ++ bytesOf w n) : Spells p code pl cmd := by
  obtain ⟨m, n, hm, hn, rfl, rfl⟩ := parseTwo_eq_some.mp h
  obtain ⟨hFits, hPort, hCommand, hPayload⟩ := hf m n hm hn
  exact .of_payload hCode hFits hPort hCommand hPayload

theorem spells_of_parseSigned {w : Nat} {f : Nat → Int → Instr} (h : parseSigned w f pl = some cmd)
    (hf : ∀ m v, fits 1 m = true → fitsSigned w v = true → (f m v).wellFormed = true ∧ portOf (f m v) = some p ∧
      codeOf (f m v) = some code ∧ requestPayload (f m v) = bytesOf 1 m ++ bytesOfInt w v) : Spells p code pl cmd := by
  obtain ⟨m, v, hm, hv, rfl, rfl⟩ := parseSigned_eq_some.mp h
  obtain ⟨hFits, hPort, hCommand, hPayload⟩ := hf m v hm hv
  exact .of_payload hCode hFits hPort hCommand hPayload

end Read

theorem and_fits {k l m n : Nat} (hm : fits k m = true) (hn : fits l n = true) : (fits k m && fits l n) = true := by
  rw [hm, hn]; rfl

theorem and_fitsSigned {k l m : Nat} {v : Int} (hm : fits k m = true) (hv : fitsSigned l v = true) :
    (fits k m && fitsSigned l v) = true := by rw [hm, hv]; rfl

/-- The mask field of SET NOTICE MASK carries every number of two bytes. -/
theorem mask_bytes {n : Nat} (h : fits 2 n = true) : bytesOf 2 (BitVec.ofNat 16 n).toNat = bytesOf 2 n := by
  rw [BitVec.toNat_ofNat]
  exact congrArg (bytesOf 2) (Nat.mod_eq_of_lt (fits_iff.mp h))

/-- A payload that is read as a command spells it. -/
theorem spells_of_parseCommand (h : parseCommand p code pl = some cmd) : Spells p code pl cmd := by
  unfold parseCommand at h
  split at h
  -- NOP, NEXT NOTICE, CELL RUN, CELL STOP, CLEAR TABLES, QUEUE STATUS
  case h_1 | h_2 | h_12 | h_13 | h_14 | h_38 => exact spells_of_parseNone (by decide) h rfl rfl rfl rfl
  -- SET NOTICE MASK
  case h_3 => exact spells_of_parseOne (by decide) h fun n hn => ⟨rfl, rfl, rfl, mask_bytes hn⟩
  -- one number: a bay, a plan, a slot, a cell, an interval, a variant code, a report number
  case h_4 | h_6 | h_7 | h_8 | h_11 | h_17 | h_20 | h_21 | h_22 | h_23 | h_25 | h_28 | h_29 | h_30 | h_31 | h_32 | h_33 | h_35 | h_37 =>
    exact spells_of_parseOne (by decide) h fun n hn => ⟨hn, rfl, rfl, rfl⟩
  -- PRESENT
  case h_5 =>
    obtain ⟨⟨n, serial, c, rfl⟩, hFits, hPayload⟩ := parsePresent_eq_some.mp h
    exact .of_payload (by decide) hFits rfl rfl hPayload
  -- SET LINES, CLEAR LINES
  case h_9 | h_10 => exact spells_of_parseTwo (by decide) h fun m n hm _ => ⟨hm, rfl, rfl, rfl⟩
  -- SET CELL, READ VARIANT, PEEK REPORT
  case h_15 | h_26 | h_36 => exact spells_of_parseTwo (by decide) h fun m n hm hn => ⟨and_fits hm hn, rfl, rfl, rfl⟩
  -- CONFIGURE BAY
  case h_16 =>
    obtain ⟨⟨n, speed, width, angle, m, rfl⟩, hFits, hPayload⟩ := parseConfigureBay_eq_some.mp h
    exact .of_payload (by decide) hFits rfl rfl hPayload
  -- WRITE STEP
  case h_18 =>
    obtain ⟨⟨n, k, r, rfl⟩, hFits, hPayload⟩ := parseWriteStep_eq_some.mp h
    exact ⟨hFits, rfl, rfl, hPayload⟩
  -- PUBLISH PLAN
  case h_19 =>
    obtain ⟨⟨n, head, flag, rfl⟩, hFits, hPayload⟩ := parsePublishPlan_eq_some.mp h
    exact .of_payload (by decide) hFits rfl rfl hPayload
  -- WRITE VARIANT
  case h_24 =>
    obtain ⟨⟨c, n, cells, rfl⟩, hFits, hPayload⟩ := parseWriteVariant_eq_some.mp h
    exact .of_payload (by decide) hFits rfl rfl hPayload
  -- WRITE CELL, JOG
  case h_27 | h_34 => exact spells_of_parseSigned (by decide) h fun m v hm hv => ⟨and_fitsSigned hm hv, rfl, rfl, rfl⟩
  -- a code of no command
  case h_39 => cases h

end Sys2Proof.Machine
end

section
/-! PROOF. A command that a payload spells is read from it (O17, O41). -/

namespace Sys2Proof.Machine

variable {p : PortId} {pl : List Byte} {cmd : Instr} {code : Nat}

theorem parseNone_of_payload {i : Instr} (h : requestPayload i = pl) (hEmpty : requestPayload i = []) : parseNone i pl = some i :=
  parseNone_eq_some.mpr ⟨h ▸ hEmpty, rfl⟩

theorem parseOne_of_payload {w n : Nat} {f : Nat → Instr} (hn : fits w n = true) (h : bytesOf w n = pl) :
    parseOne w f pl = some (f n) := parseOne_eq_some.mpr ⟨n, hn, h.symm, rfl⟩

theorem parseTwo_of_payload {v w m n : Nat} {f : Nat → Nat → Instr} (hm : fits v m = true) (hn : fits w n = true)
    (h : bytesOf v m ++ bytesOf w n = pl) : parseTwo v w f pl = some (f m n) :=
  parseTwo_eq_some.mpr ⟨m, n, hm, hn, h.symm, rfl⟩

theorem parseSigned_of_payload {w m : Nat} {v : Int} {f : Nat → Int → Instr} (hm : fits 1 m = true) (hv : fitsSigned w v = true)
    (h : bytesOf 1 m ++ bytesOfInt w v = pl) : parseSigned w f pl = some (f m v) :=
  parseSigned_eq_some.mpr ⟨m, v, hm, hv, h.symm, rfl⟩

/-- A line mask is read as the byte it is. -/
theorem parseLines_of_payload {n : Nat} {m : Byte} {f : Nat → Byte → Instr} (hn : fits 1 n = true) (h : bytesOf 1 n ++ [m] = pl) :
    parseTwo 1 1 (fun b x => f b (BitVec.ofNat 8 x)) pl = some (f n m) := by
  rw [parseTwo_of_payload hn (fits_toNat m) (by rw [bytesOf_toNat, h]), BitVec.ofNat_toNat, BitVec.setWidth_eq]

/-- A notice mask is read as the two bytes it is. -/
theorem parseMask_of_payload {m : BitVec 16} {f : BitVec 16 → Instr} (h : bytesOf 2 m.toNat = pl) :
    parseOne 2 (fun x => f (BitVec.ofNat 16 x)) pl = some (f m) := by
  rw [parseOne_of_payload (fits_iff.mpr m.isLt) h, BitVec.ofNat_toNat, BitVec.setWidth_eq]

/-- A command that a payload spells is read from it. -/
theorem parseCommand_of_spells (h : Spells p code pl cmd) : parseCommand p code pl = some cmd := by
  obtain ⟨hFits, hPort, hCommand, hPayload⟩ := h
  cases cmd with
  | powerOnReset | millisecondTick | driveReport | driveLost | rampTimeout | dwellEnd | windDownExpiry | holdExpired | pressureWord
  | temperatureWord | vibrationWord | foreignTagWord | wordBreak | silencePurge | pressureLoss | temperatureLoss | acquisitionTimeout
  | reductionComplete | fillLimitExpiry | settleEnd | measureEnd | ventLimitExpiry | inputLineChange | quietTimerExpiry
  | transferStart | requestTaken | responseReady => cases hCommand
  | nop | nextNotice | cellRun | cellStop | clearTables | queueStatus =>
    cases hPort; cases hCommand
    exact parseNone_of_payload hPayload rfl
  | setNoticeMask =>
    cases hPort; cases hCommand
    exact parseMask_of_payload hPayload
  | setNoticeInterval | handover | withdraw | release | readBay | openPlan | discardPlan | retirePlan | readStep | readPlan
  | deleteVariant | readCell | hold | resume | abort | takeManual | returnManual | readLive | takeReport =>
    cases hPort; cases hCommand
    exact parseOne_of_payload hFits hPayload
  | setLines | clearLines =>
    cases hPort; cases hCommand
    exact parseLines_of_payload hFits hPayload
  | setCell | readVariant | peekReport =>
    cases hPort; cases hCommand
    obtain ⟨hm, hn⟩ := Bool.and_eq_true_iff.mp hFits
    exact parseTwo_of_payload hm hn hPayload
  | writeCell | jog =>
    cases hPort; cases hCommand
    obtain ⟨hm, hv⟩ := Bool.and_eq_true_iff.mp hFits
    exact parseSigned_of_payload hm hv hPayload
  | present =>
    cases hPort; cases hCommand
    exact parsePresent_eq_some.mpr ⟨⟨_, _, _, rfl⟩, hFits, hPayload⟩
  | configureBay =>
    cases hPort; cases hCommand
    exact parseConfigureBay_eq_some.mpr ⟨⟨_, _, _, _, _, rfl⟩, hFits, hPayload⟩
  | writeStep =>
    cases hPort; cases hCommand
    exact parseWriteStep_eq_some.mpr ⟨⟨_, _, _, rfl⟩, hFits, hPayload⟩
  | publishPlan =>
    cases hPort; cases hCommand
    exact parsePublishPlan_eq_some.mpr ⟨⟨_, _, _, rfl⟩, hFits, hPayload⟩
  | writeVariant =>
    cases hPort; cases hCommand
    exact parseWriteVariant_eq_some.mpr ⟨⟨_, _, _, rfl⟩, hFits, hPayload⟩

end Sys2Proof.Machine
end

section
/-! PROOF. The check of a frame decides its two check bytes, and every command is read back from its request frame (O17). -/

namespace Sys2Proof.Machine

/-! ## The check bytes (R165) -/

theorem low_bit_of_shift {r : BitVec 16} {j : Nat} (hj : j < 16) (h : r <<< j = 0#16) : r.getLsbD 0 = false := by
  have hBit : (r <<< j).getLsbD j = (0#16).getLsbD j := congrArg (BitVec.getLsbD · j) h
  rwa [BitVec.getLsbD_shiftLeft, Nat.sub_self, decide_eq_true hj, decide_eq_false (Nat.lt_irrefl j), BitVec.getLsbD_zero] at hBit

/-- The lowest bit of 1021 hex is set: a register whose low bits are 0 after a step has shifted out a top bit equal to the data bit. -/
theorem crcBit_low_zero {r : BitVec 16} {bit : Bool} {j : Nat} (hj : j < 16) (h : crcBit r bit <<< j = 0#16) :
    bit = r.getLsbD 15 ∧ r <<< (j + 1) = 0#16 := by
  unfold crcBit at h
  split at h
  · have hLow := low_bit_of_shift hj h
    rw [BitVec.getLsbD_xor, BitVec.getLsbD_shiftLeft, show decide (0 < 1) = true from rfl, Bool.not_true, Bool.and_false,
      Bool.false_and, Bool.false_xor] at hLow
    exact absurd hLow (by decide)
  · next hEq =>
    refine ⟨by
      rw [bne_iff_ne, not_not] at hEq
      exact hEq.symm, ?_⟩
    rw [Nat.add_comm, BitVec.shiftLeft_add]
    exact h

/-- Bits that bring the register to 0 are its own bits, the top one first. -/
theorem bits_of_foldl_crcBit_zero {r : BitVec 16} {bits : List Bool} {j : Nat} (hLength : bits.length + j ≤ 16)
    (h : bits.foldl crcBit r <<< j = 0#16) : bits = (List.range bits.length).map fun i => r.getLsbD (15 - i) := by
  induction bits using List.reverseRecOn generalizing j with
  | nil => rfl
  | append_singleton bits bit ih =>
    rw [List.length_append, List.length_singleton] at hLength
    rw [List.foldl_append, List.foldl_cons, List.foldl_nil] at h
    obtain ⟨hBit, hShift⟩ := crcBit_low_zero (by omega) h
    have hBits := ih (j := j + 1) (by omega) hShift
    rw [hBits, foldl_crcBit_own r (by omega), BitVec.getLsbD_shiftLeft] at hBit
    rw [List.length_append, List.length_singleton, List.range_succ, List.map_append, ← hBits, hBit]
    simp [show bits.length ≤ 15 by omega]

theorem length_bitsOf (x : Byte) : (bitsOf x).length = 8 := by rw [bitsOf, List.length_map, List.length_range]

theorem bitsOf_inj {x y : Byte} (h : bitsOf x = bitsOf y) : x = y := BitVec.eq_of_getLsbD_eq fun i hi => by
  have hBit := List.map_inj_left.mp h (7 - i) (List.mem_range.mpr (by omega))
  rwa [show 7 - (7 - i) = i by omega] at hBit

theorem flatMap_bitsOf_inj {xs ys : List Byte} (hLength : xs.length = ys.length) (h : xs.flatMap bitsOf = ys.flatMap bitsOf) :
    xs = ys := by
  induction xs generalizing ys with
  | nil => exact (List.length_eq_zero_iff.mp hLength.symm).symm
  | cons x xs ih =>
    obtain ⟨y, ys, rfl⟩ := List.exists_cons_of_length_eq_add_one (hLength.symm.trans List.length_cons)
    rw [List.flatMap_cons, List.flatMap_cons] at h
    obtain ⟨hHead, hTail⟩ := List.append_inj h (by rw [length_bitsOf, length_bitsOf])
    rw [bitsOf_inj hHead, ih (by simpa using hLength) hTail]

/-- Two bytes bring the check over a run to 0000 exactly when they are the run's own check. -/
theorem crc_append_eq_zero_iff {bytes check : List Byte} (hCheck : check.length = 2) :
    crc (bytes ++ check) = 0#16 ↔ check = bytesOf 2 (crc bytes).toNat := by
  constructor
  · intro h
    rw [crc, List.foldl_append, foldl_crcByte check] at h
    have hLength : (check.flatMap bitsOf).length = 16 := by
      obtain ⟨a, b, rfl⟩ := List.length_eq_two.mp hCheck
      rfl
    have hBits := bits_of_foldl_crcBit_zero (j := 0) (by rw [hLength]) (by rw [BitVec.shiftLeft_zero]; exact h)
    rw [hLength, ← bitsOf_check] at hBits
    exact flatMap_bitsOf_inj (by rw [hCheck, length_bytesOf]) hBits
  · rintro rfl
    exact crc_withCheck bytes

/-! ## The examination of a frame (R167) -/

/-- A frame whose length byte fits the bytes received is dispatched when the check over it is 0000. -/
theorem takeFrame_checked (p : PortId) {code tag len : Byte} {rest : List Byte} (hLength : len.toNat ≤ 56)
    (hRest : len.toNat + 2 ≤ rest.length) : takeFrame p (code :: tag :: len :: rest) 0 =
      if crc (code :: tag :: len :: rest.take (len.toNat + 2)) = 0#16 then dispatch p code tag (rest.take len.toNat) else badFrame 3 := by
  have hCheck : ((rest.drop len.toNat).take 2).length = 2 := by rw [List.length_take, List.length_drop]; omega
  have hIff := crc_append_eq_zero_iff (bytes := code :: tag :: len :: rest.take len.toNat) hCheck
  rw [List.cons_append, List.cons_append, List.cons_append, ← List.take_add] at hIff
  rw [takeFrame, if_neg (fun h => h rfl)]
  simp only [show ¬(56 < len.toNat ∨ rest.length < len.toNat + 2) by omega, if_false]
  exact if_congr hIff.symm rfl rfl

/-! ## The commands in their frames (R168, R170 to R172) -/

variable {p : PortId} {cmd : Instr}

theorem portsOf_lt {code : Nat} {ps : List PortId} (h : portsOf code = some ps) : code < 256 := by
  by_contra hCode
  rw [portsOf, if_neg (by omega), if_neg (by omega), if_neg (by omega), if_neg (by omega), if_neg (by omega), if_neg (by omega)] at h
  cases h

theorem carriedOn_iff : p ∈ carriedOn cmd ↔ ∃ code ps, codeOf cmd = some code ∧ portsOf code = some ps ∧ p ∈ ps := by
  rw [carriedOn]
  constructor
  · intro h
    cases hPorts : (codeOf cmd).bind portsOf with
    | none => rw [hPorts] at h; cases h
    | some ps =>
      obtain ⟨code, hCode, hPs⟩ := Option.bind_eq_some_iff.mp hPorts
      rw [hPorts] at h
      exact ⟨code, ps, hCode, hPs, h⟩
  · rintro ⟨code, ps, hCode, hPs, h⟩
    rw [hCode, Option.bind_some, hPs]
    exact h

theorem writeStep_of_code (h : codeOf cmd = some 0x31) : ∃ q n k r, cmd = .writeStep q n k r := by
  cases cmd with
  | writeStep q n k r => exact ⟨q, n, k, r, rfl⟩
  | _ => nomatch h

/-- The audit cell byte of a well-formed record without AUDIT is 0, so it is what the layout reads. -/
theorem layoutOf_stepBytes {q : PortId} {n k : Nat} {r : StepRecord} (h : (Instr.writeStep q n k r).wellFormed = true) :
    layoutOf 0x31 (stepBytes n k r) = stepBytes n k r := by
  simp only [Instr.wellFormed, StepRecord.wellFormed, Bool.and_eq_true, beq_iff_eq] at h
  obtain ⟨-, ⟨⟨hIsSome, -⟩, -⟩, -⟩ := h
  have hCell : (if (writtenFields n k r).skip = 5 then (writtenFields n k r).cell else 0) = (writtenFields n k r).cell := by
    by_cases hAudit : r.skip = .audit
    · exact if_pos ((skip_audit_iff (toNat_of_fits (skipCode_lt r.skip))).mpr hAudit)
    · have hSkip : ¬(writtenFields n k r).skip = 5 := fun hs => hAudit ((skip_audit_iff (toNat_of_fits (skipCode_lt r.skip))).mp hs)
      rw [if_neg hSkip]
      rw [decide_eq_false hAudit, Option.isSome_eq_false_iff, Option.isNone_iff_eq_none] at hIsSome
      simp only [writtenFields, hIsSome]
      rfl
  rw [stepBytes_eq, layoutOf_step, hCell]

/-- A well-formed command is spelled by its own payload. -/
theorem spells_requestPayload {code : Nat} (hFits : cmd.wellFormed = true) (hPort : portOf cmd = some p) (hCode : codeOf cmd = some code) :
    Spells p code (requestPayload cmd) cmd := by
  refine ⟨hFits, hPort, hCode, ?_⟩
  by_cases hStep : code = 0x31
  · subst hStep
    obtain ⟨q, n, k, r, rfl⟩ := writeStep_of_code hCode
    exact (layoutOf_stepBytes hFits).symm
  · exact (layoutOf_other hStep _).symm

/-- A payload has at most 56 bytes (R167). -/
theorem length_requestPayload_le (hFits : cmd.wellFormed = true) : (requestPayload cmd).length ≤ 56 := by
  cases cmd with
  | present q n serial code =>
    simp only [Instr.wellFormed, Bool.and_eq_true, decide_eq_true_iff] at hFits
    obtain ⟨⟨-, hSerial⟩, -⟩ := hFits
    simp only [requestPayload, List.length_append, length_bytesOf]
    omega
  | writeStep q n k r =>
    rw [requestPayload, length_stepBytes]
    omega
  | writeVariant q code n cells =>
    rw [requestPayload, List.length_append, List.length_append, length_bytesOf, length_bytesOf,
      length_flatten_map (fun v => length_bytesOfInt 3 v), Vector.length_toList]
    decide
  | publishPlan q n head flag =>
    cases flag <;> simp [requestPayload, byteOfBool]
  | _ => simp [requestPayload]

/-- The frame of a command, its check over the three bytes of its head and its payload (09, Byte layouts). -/
theorem requestFrame_eq {code : Nat} (tag : Byte) (hCode : codeOf cmd = some code) : ∃ check : List Byte, check.length = 2 ∧
    requestFrame tag cmd =
      BitVec.ofNat 8 code :: tag :: BitVec.ofNat 8 (requestPayload cmd).length :: (requestPayload cmd ++ check) ∧
    crc (requestFrame tag cmd) = 0#16 := by
  refine ⟨bytesOf 2 (crc (bytesOf 1 code ++ [tag] ++ bytesOf 1 (requestPayload cmd).length ++ requestPayload cmd)).toNat,
    length_bytesOf .., ?_, crc_withCheck _⟩
  simp only [requestFrame, hCode, withCheck, bytesOf_one, Option.getD_some, List.cons_append, List.nil_append]

theorem dispatch_of_spells {code tag : Byte} {pl : List Byte} {ps : List PortId} (hPorts : portsOf code.toNat = some ps) (hp : p ∈ ps)
    (h : Spells p code.toNat pl cmd) : dispatch p code tag pl = .command tag cmd := by
  simp only [dispatch, hPorts, hp, not_true, if_false, parseCommand_of_spells h]

theorem dispatch_of_not_spells {code tag : Byte} {pl : List Byte} {ps : List PortId} (hPorts : portsOf code.toNat = some ps) (hp : p ∈ ps)
    (h : ∀ cmd, ¬Spells p code.toNat pl cmd) : dispatch p code tag pl = .answer .badArgument tag [] := by
  have hNone : parseCommand p code.toNat pl = none :=
    Option.eq_none_iff_forall_ne_some.mpr fun cmd hCmd => h cmd (spells_of_parseCommand hCmd)
  simp only [dispatch, hPorts, hp, not_true, if_false, hNone]

/-- Settles O17. -/
theorem requestFrameRoundTrip : Obligations.RequestFrameRoundTrip := by
  intro cmd p tag extra hFits hPort hCarried
  obtain ⟨code, ps, hCode, hPorts, hp⟩ := carriedOn_iff.mp hCarried
  obtain ⟨check, hCheck, hFrame, hZero⟩ := requestFrame_eq tag hCode
  have hShort := length_requestPayload_le hFits
  have hByte : (BitVec.ofNat 8 code).toNat = code := toNat_of_fits (fits_iff.mpr (portsOf_lt hPorts))
  have hLen : (BitVec.ofNat 8 (requestPayload cmd).length).toNat = (requestPayload cmd).length := toNat_of_fits (fits_iff.mpr (by omega))
  have hWhole : (requestPayload cmd ++ check ++ extra).take ((requestPayload cmd).length + 2) = requestPayload cmd ++ check :=
    List.take_left' (by rw [List.length_append, hCheck])
  have hPayload : (requestPayload cmd ++ check ++ extra).take (requestPayload cmd).length = requestPayload cmd := by
    rw [List.append_assoc, List.take_left]
  rw [hFrame, List.cons_append, List.cons_append, List.cons_append,
    takeFrame_checked p (by rw [hLen]; exact hShort) (by simp only [hLen, List.length_append, hCheck]; omega), hLen, hWhole, hPayload,
    if_pos (hFrame ▸ hZero)]
  exact dispatch_of_spells (by rw [hByte]; exact hPorts) hp (by rw [hByte]; exact spells_requestPayload hFits hPort hCode)

end Sys2Proof.Machine
end

section
/-! PROOF. SEL rises at a port: what becomes of the bytes received (O41). -/

namespace Sys2Proof.Machine

/-! ## The port -/

variable {p : PortId} {bytes : List Byte} {extra : Nat} {s : State} {kind : TransferKind} {x : Port}

theorem exec_requestTaken (p : PortId) (bytes : List Byte) (extra : Nat) (s : State) :
    exec (.requestTaken p bytes extra) s = .next (mapPort p (Port.endTransfer p bytes extra) s) := rfl

theorem endTransfer_outside (h : x.state = .quiet ∨ x.state = .executing) : x.endTransfer p bytes extra = x := by
  rcases h with h | h <;> simp only [Port.endTransfer, h]

theorem endTransfer_notReady (h : x.state = .inTransfer .notReady) :
    x.endTransfer p bytes extra = { x with readOut := x.clockOut bytes.length }.discardTransfer := by
  simp only [Port.endTransfer, h]

theorem discardTransfer_eq (x : Port) : x.discardTransfer = { x with
    received := [], receivedBits := 0, state := if x.request = none ∧ x.preparing = none then .quiet else .executing } := by
  rw [Port.discardTransfer]
  congr 1
  cases x.request with
  | none => cases x.preparing with
    | none => rfl
    | some r => rfl
  | some r => rfl

theorem endTransfer_taken (h : x.state = .inTransfer kind) (hKind : kind ≠ .notReady) : x.endTransfer p bytes extra =
    { x with readOut := x.clockOut bytes.length, cutMark := x.cutMark || wasCut kind bytes extra }.take
      (takeFrame p bytes extra) bytes extra := by
  cases kind with
  | notReady => exact absurd rfl hKind
  | idle | response => simp only [Port.endTransfer, h]

theorem notice_eq (notices : List Notice) : (!notices.isEmpty) = decide (notices ≠ []) := by
  cases notices <;> rfl

/-- The bytes received, and with them the request or the refusal, stand in the port. -/
def takenState (p : PortId) (kind : TransferKind) (bytes : List Byte) (extra : Nat) (s : State) (request : Option (Byte × Instr))
    (preparing : Option Response) : State :=
  mapPort p (fun x => { x with
    state := .executing, received := bytes, receivedBits := extra, readOut := (s.port p).clockOut bytes.length, request := request,
    preparing := preparing, cutMark := (s.port p).cutMark || wasCut kind bytes extra }) s

theorem exec_requestTaken_answer {st : Status} {tag : Byte} {pl : List Byte} (hState : (s.port p).state = .inTransfer kind)
    (hKind : kind ≠ .notReady) (h : takeFrame p bytes extra = .answer st tag pl) : exec (.requestTaken p bytes extra) s =
      .next (takenState p kind bytes extra s none (some ⟨st, tag, decide ((s.port p).notices ≠ []), pl⟩)) := by
  rw [exec_requestTaken]
  refine congrArg Host.Outcome.next (mapPort_congr ?_)
  rw [endTransfer_taken hState hKind, h, ← notice_eq] <;> rfl

theorem exec_requestTaken_command {tag : Byte} {cmd : Instr} (hState : (s.port p).state = .inTransfer kind)
    (hKind : kind ≠ .notReady) (h : takeFrame p bytes extra = .command tag cmd) : exec (.requestTaken p bytes extra) s =
      .next (takenState p kind bytes extra s (some (tag, cmd)) none) := by
  rw [exec_requestTaken]
  refine congrArg Host.Outcome.next (mapPort_congr ?_)
  rw [endTransfer_taken hState hKind, h] <;> rfl

/-- Only a response can be cut short (R166). -/
theorem cutMark_eq (mark : Bool) (kind : TransferKind) (bytes : List Byte) (extra : Nat) : (mark || wasCut kind bytes extra) =
    match kind with
    | .response n => mark || decide (bytes.length * 8 + extra < n * 8)
    | _ => mark := by
  cases kind with
  | response n => rfl
  | notReady | idle => exact Bool.or_false mark

/-! ## The order of the examination (R167, R168) -/

theorem takeFrame_bits (h : extra ≠ 0) : takeFrame p bytes extra = badFrame 1 := if_pos h

theorem takeFrame_short (h : bytes.length < 3) : takeFrame p bytes 0 = badFrame 2 := by
  match bytes, h with
  | [], _ | [_], _ | [_, _], _ => rfl

theorem takeFrame_length {code tag len : Byte} {rest : List Byte} (h : 56 < len.toNat ∨ rest.length < len.toNat + 2) :
    takeFrame p (code :: tag :: len :: rest) 0 = badFrame 2 := by
  rw [takeFrame, if_neg (fun h => h rfl)]
  exact if_pos h

theorem dispatch_unknown {code tag : Byte} {pl : List Byte} (h : portsOf code.toNat = none) :
    dispatch p code tag pl = .answer .unknownCommand tag [] := by
  simp only [dispatch, h]

theorem dispatch_wrongPort {code tag : Byte} {pl : List Byte} {ps : List PortId} (h : portsOf code.toNat = some ps) (hp : p ∉ ps) :
    dispatch p code tag pl = .answer .wrongPort tag [] := by
  simp only [dispatch, h, hp, not_false_eq_true, if_true]

/-- A payload spells a command in the layout that O41 writes out. -/
theorem spells_iff {code : Byte} {pl : List Byte} {cmd : Instr} : Spells p code.toNat pl cmd ↔
    cmd.wellFormed = true ∧ portOf cmd = some p ∧ codeOf cmd = some code.toNat ∧
      requestPayload cmd = if code = 0x31#8 ∧ pl[3]? ≠ some 5#8 then pl.set 4 0 else pl := by
  have hLayout : layoutOf code.toNat pl = if code = 0x31#8 ∧ pl[3]? ≠ some 5#8 then pl.set 4 0 else pl := by
    have hCode : code.toNat = 0x31 ↔ code = 0x31#8 := by rw [← BitVec.toNat_inj]; rfl
    exact if_congr (and_congr_left' hCode) rfl rfl
  rw [← hLayout]
  exact ⟨fun ⟨hFits, hPort, hCommand, hPayload⟩ => ⟨hFits, hPort, hCommand, hPayload⟩,
    fun ⟨hFits, hPort, hCommand, hPayload⟩ => ⟨hFits, hPort, hCommand, hPayload⟩⟩

/-- Settles O41. -/
theorem requestIsExaminedAndDispatched : Obligations.RequestIsExaminedAndDispatched := by
  intro p bytes extra s read
  refine ⟨fun hState => ?_, fun kind hKind hState => ?_, fun hState => ?_⟩
  · rw [exec_requestTaken]
    refine congrArg Host.Outcome.next (mapPort_congr ?_)
    rw [endTransfer_notReady hState]
    rw [discardTransfer_eq] <;> rfl
  · intro taken notice
    have hTaken : taken = takenState p kind bytes extra s := by
      funext request preparing
      simp only [taken, takenState, cutMark_eq]
      rfl
    rw [hTaken]
    have answers : ∀ {st tag pl}, takeFrame p bytes extra = .answer st tag pl → exec (.requestTaken p bytes extra) s =
        .next (takenState p kind bytes extra s none (some ⟨st, tag, notice, pl⟩)) := fun h => exec_requestTaken_answer hState hKind h
    have commands : ∀ {tag cmd}, takeFrame p bytes extra = .command tag cmd → exec (.requestTaken p bytes extra) s =
        .next (takenState p kind bytes extra s (some (tag, cmd)) none) := fun h => exec_requestTaken_command hState hKind h
    refine ⟨fun hExtra => answers (takeFrame_bits hExtra), ?_, ?_, ?_⟩
    · rintro rfl hShort
      exact answers (takeFrame_short hShort)
    · rintro code tag len rest rfl rfl
      refine ⟨fun hLength => answers (takeFrame_length hLength), fun hLength hRest => ?_⟩
      intro checked
      have hFrame := takeFrame_checked p (code := code) (tag := tag) hLength hRest
      refine ⟨fun hCheck => answers (hFrame.trans (if_neg hCheck)), fun hCheck => ?_⟩
      have hDispatch := hFrame.trans (if_pos hCheck)
      refine ⟨fun hUnknown => answers (hDispatch.trans (dispatch_unknown hUnknown)),
        fun ps hPorts hp => answers (hDispatch.trans (dispatch_wrongPort hPorts hp)), fun ps hPorts hp => ?_⟩
      intro payload layout spells
      exact ⟨fun hNone => answers (hDispatch.trans (dispatch_of_not_spells hPorts hp fun cmd h => hNone cmd (spells_iff.mp h))),
        fun cmd h => commands (hDispatch.trans (dispatch_of_spells hPorts hp (spells_iff.mpr h)))⟩
    · rintro cmd tag tail rfl rfl hFits hPort hCarried
      exact commands (requestFrameRoundTrip cmd p tag tail hFits hPort hCarried)
  · rw [exec_requestTaken, mapPort_eq_self (endTransfer_outside hState)]

end Sys2Proof.Machine
end
